-- ==== Sys2Proof/Word.lean ====
section
/-!
DEFINITION. The plainest arithmetic on one-bit values and patterns (R11, R12, R18). Every width of this
hardware is a parameter of its configuration, so a pattern or unsigned register is a Nat and a signed
register an Int, each kept inside its width by the writes (Machine/Bits.lean) and by the invariants of
Safety.lean, exactly as the spec writes it: "a width-w bit pattern is an integer in [0, 2^w)" (R11).
-/

namespace Sys2Proof.Machine

/-- A one-bit value as a number (R18: true/false and 1/0 are used interchangeably). -/
def bitNat (b : Bool) : Nat :=
  if b then 1 else 0

/-- An unsigned write of width w: `x mod 2^w` (R12). -/
def cut (w : Nat) (x : Nat) : Nat :=
  x % 2 ^ w

end Sys2Proof.Machine
end

