-- ==== Sys2Proof/Config.lean ====
section
/-!
DEFINITION. The configuration of the block: the parameters of R7, the behaviour options of R8 and the
configuration fields of R9, and the free values (the spec's "draws"). The configuration is held in State and
no step changes it once it is accepted (R29, R50); the free values are opaque constants, so nothing can be
proved about any value of theirs.
-/

namespace Sys2Proof

/-- `ACC_MODE` (R8, R190). -/
inductive AccMode
  | literal
  | corrected
  deriving DecidableEq, Repr

/-- `TRUNC_SELECT` (R8, R211). -/
inductive TruncSelect
  | msb
  | lsb
  deriving DecidableEq, Repr

/-- `QUANT_ROUND` (R8, R116). -/
inductive QuantRound
  | trunc
  | nearestEven
  deriving DecidableEq, Repr

/-- What the Responder's table comes from: "BITS or GTAB" (R252). A given table keeps its bits as
integers, because construction checks that they are 0 or 1 (R251, CE4). -/
inductive TableSource
  | bits (b : List Bool)
  | given (table : List (Int × Int))
  deriving DecidableEq, Repr

/-- A tone in Hz, a real number (R7): a rational one is given exactly, an irrational one is the free real
`Config.toneDraw n` stands for, on the side of 0 that the configuration says (log entry 8). -/
inductive Tone
  | rational (q : Rat)
  | real (positive : Bool) (n : Nat)
  deriving DecidableEq, Repr

/-- The configuration field COS (R9): its values at the arguments the configuration lists (in turns, that
is divided by 2π), and which free function it is at every other argument (log entries 7 and 9). -/
structure CosField where
  points : List (Rat × Rat) := []
  draw : Nat := 0
  deriving DecidableEq, Repr

/-- What a configuration fixes besides integers: the tones of R7, BITS or GTAB, the options of R8 and the
fields of R9, under the spec's names. `qmemInit` lists the power-on contents the environment fixes, from
slot 0 on; a slot it does not list holds a free value (R41, I1). -/
structure Options where
  f1 : Tone
  f0 : Tone
  source : TableSource
  qmemInit : List Int := []
  accMode : AccMode := .literal
  rspAbort : Bool := false
  truncSelect : TruncSelect := .msb
  quantRound : QuantRound := .trunc
  quantBias : Int := 0
  cos : CosField := {}
  deriving DecidableEq, Repr

/-- A configuration the block can have (R7 to R9): its integers are what construction accepts, no negative
one among them. -/
structure Config extends Options where
  N : Nat
  C : Nat
  D : Nat
  K : Nat
  T : Nat
  F : Nat
  R : Nat
  B : Nat
  P : Nat
  rdPeriod : Nat
  deriving DecidableEq, Repr

/-- What the environment hands over to be constructed (R238, R252): any integers. -/
structure Proposal extends Options where
  N : Int
  C : Int
  D : Int
  K : Int
  T : Int
  F : Int
  R : Int
  B : Int
  P : Int
  rdPeriod : Int
  deriving DecidableEq, Repr

/-- FREE VALUE: a real number other than 0. Its square is any positive real number, so it stands for every
positive tone (R7; log entry 8). -/
opaque Config.toneDraw : Nat → ℝˣ

/-- FREE VALUE: the n-th free function of a real argument in turns (argument / 2π), before clamping. COS is
"a total function from an argument to a value in [-1, 1]" (R9) and nothing else is assumed of it (log
entries 7 and 9). -/
opaque Config.cosDraw : Nat → ℝ → Rat

/-- FREE VALUE: the power-on content of a queue slot, before it is cut to T bits (R41, D22, I1; log
entry 4). -/
opaque Config.qmemDraw : Nat → Int

/-- FREE VALUE: the n-th read of the queue outside its K slots, before it is cut to T bits (R73, D23,
I2; log entry 5). -/
opaque Config.readDraw : Nat → Int

/-- FREE VALUE: the random bit of a symbol, for the configuration of `State.reset` (R111, D13, I6;
log entry 6). -/
opaque Config.bitDraw : Nat → Bool

/-- FREE VALUE: the data line while the Responder's state register holds the unused code given: the spec
gives no output for such a state (R104, vector RSP-14; log entry 15). -/
opaque Config.strayLine : Nat → Bool

/-- The scenario's configuration (R7 scenario column, R289) with its OPEN constants as in the spec's
vector SC-1 (95_test_vectors.md section 10): D = 1, T = 10, P = 1, BITS any. SC-1 gives no RD_PERIOD;
8 is DESIGN CHOICE (log entry 2). No statement rests on the OPEN values. -/
def Config.scenario : Config where
  N := 10
  C := 13
  D := 1
  K := 8
  T := 10
  F := 6000000
  R := 1200
  f1 := .rational 1200
  f0 := .rational 2200
  B := 20
  P := 1
  rdPeriod := 8
  source := .bits ((List.range 20).map Config.bitDraw)

end Sys2Proof
end

