-- ==== Sys2Proof/Machine/Bits.lean ====
section
/-!
DEFINITION. Bit patterns, sign extension and wrapping (R10, R11, R12). `x % 2^w` of an integer and
`Int.bmod` are the spec's "mod" and its balanced remainder.
-/

namespace Sys2Proof.Machine

/-- `pat_w(x) = x mod 2^w` (R12). -/
def pat (w : Nat) (x : Int) : Nat :=
  (x % ((2 ^ w : Nat) : Int)).toNat

/-- `wrap_w(x)`: the value in [-2^(w-1), 2^(w-1) - 1] equal to x modulo 2^w (R12). -/
def wrap (w : Nat) (x : Int) : Int :=
  Int.bmod x (2 ^ w)

/-- `sext_w(v)`: the signed value of the w-bit pattern v (R12). -/
def sext (w : Nat) (v : Nat) : Int :=
  wrap w (v : Int)

/-- "x lies in [-2^(w-1), 2^(w-1) - 1]" (R12). -/
def fitsSigned (w : Nat) (x : Int) : Bool :=
  decide (-((2 ^ (w - 1) : Nat) : Int) ≤ x ∧ x < ((2 ^ (w - 1) : Nat) : Int))

/-- The pattern p with bit i replaced by b (R164). -/
def setBit (p : Nat) (i : Nat) (b : Bool) : Nat :=
  if b then p ||| 2 ^ i else (p ||| 2 ^ i) ^^^ 2 ^ i

/-- `clog2(x)`: the least k with 2^k ≥ x (R10). -/
def clog2 (x : Nat) : Nat :=
  if x ≤ 1 then 0 else Nat.log2 (x - 1) + 1

end Sys2Proof.Machine
end

