-- ==== Sys2Proof/Machine/Widths.lean ====
section
/-!
DEFINITION. The widths and lengths derived from the parameters (R7, R10), the accumulator's boundary
value (R190) and the state codes of both FSMs (R91, R92).
-/

namespace Sys2Proof

open Sys2Proof.Machine

/-- Table length `L = P * B` (R7). -/
def Config.L (c : Config) : Nat := c.P * c.B

/-- Accumulator width `W = clog2(D) + N` (R7). -/
def Config.W (c : Config) : Nat := clog2 c.D + c.N

/-- FSM state code width (R10). -/
def Config.SW (c : Config) : Nat := clog2 (c.N + 4)

/-- Accumulator counter width (R10). -/
def Config.CW (c : Config) : Nat := max 1 (clog2 (c.D + 1))

/-- Responder cycle counter width (R10). -/
def Config.RW (c : Config) : Nat := max 1 (clog2 (c.C + 1))

/-- `ADV = ceil((N + 4) / (C + 1))`, the most index advances between two loads (R10, C10). -/
def Config.ADV (c : Config) : Nat := (c.N + 4 + c.C) / (c.C + 1)

/-- Responder sample index width (R10). -/
def Config.IW (c : Config) : Nat := max 1 (clog2 (c.L + c.ADV))

/-- Queue cursor width (R10). -/
def Config.QW (c : Config) : Nat := max 1 (clog2 c.K)

/-- Read-period counter width (R10). -/
def Config.PW (c : Config) : Nat := max 1 (clog2 c.rdPeriod)

/-- The accumulator's boundary value (R94, R190). -/
def Config.LIM (c : Config) : Nat :=
  match c.accMode with
  | .literal => c.D
  | .corrected => c.D - 1

/-- The configuration of a proposal whose integers are not negative. -/
def Proposal.toConfig (p : Proposal) : Config :=
  { p.toOptions with
    N := p.N.toNat
    C := p.C.toNat
    D := p.D.toNat
    K := p.K.toNat
    T := p.T.toNat
    F := p.F.toNat
    R := p.R.toNat
    B := p.B.toNat
    P := p.P.toNat
    rdPeriod := p.rdPeriod.toNat }

/-- The proposal of exactly this configuration. -/
def Config.proposal (c : Config) : Proposal :=
  { c.toOptions with
    N := c.N
    C := c.C
    D := c.D
    K := c.K
    T := c.T
    F := c.F
    R := c.R
    B := c.B
    P := c.P
    rdPeriod := c.rdPeriod }

/-- The bit sequence BITS, empty when the table is given (R111, R252). -/
def Config.bits (c : Config) : List Bool :=
  match c.source with
  | .bits b => b
  | .given _ => []

/-- `BITS[s]` for a symbol s of the sequence; none for s ≥ B (R111, R120). -/
def Config.bitOf (c : Config) (s : Nat) : Option Bool :=
  if s < c.B then c.bits[s]? else none

namespace Machine

/-- State code of `IDLE` (R91). -/
def idleCode : Nat := 0
/-- State code of `WAIT1` (R91). -/
def wait1Code : Nat := 1
/-- State code of `WAIT2` (R91). -/
def wait2Code : Nat := 2
/-- State code of `NULLBIT` (R91). -/
def nullbitCode : Nat := 3
/-- State code of `BIT(i)`: `N + 3 - i` (R91). -/
def bitCode (c : Config) (i : Nat) : Nat := c.N + 3 - i

end Machine

end Sys2Proof
end

