-- ==== Sys2Proof/Syntax.lean ====
section
/-!
DEFINITION. The operations of the opcode table, one constructor per row (R98, R106, opcode_table.json),
and the selector formats (R91 to R97). Two constructors more, `decBitN` and `rspBitN`, are the rows
DEC.BIT(i) and RSP.BIT(i) that R106 repeats for a width N above 10 (log entry 16).
-/

namespace Sys2Proof

/-- One operation of one component. -/
inductive Instr
  | decIdle
  | decWait1
  | decWait2
  | decNullbit
  | decBit9
  | decBit8
  | decBit7
  | decBit6
  | decBit5
  | decBit4
  | decBit3
  | decBit2
  | decBit1
  | decBit0
  | decBitN (i : Nat)
  | unusedDsel14
  | unusedDsel15
  | rspIdleHold
  | rspIdleGo
  | rspWait1
  | rspWait2
  | rspNullbit
  | rspBit9
  | rspBit8
  | rspBit7
  | rspBit6
  | rspBit5
  | rspBit4
  | rspBit3
  | rspBit2
  | rspBit1
  | rspBit0
  | rspBitN (i : Nat)
  | rspAbort
  | unusedRsel14
  | unusedRsel15
  | rspCount
  | rspWrap
  | accHold
  | accAdd
  | accEmit
  | qNowrite
  | qWriteAdv
  | qWriteWrap
  | qRead
  | hRdwait
  | hRdadv
  | genInit
  | genSame
  | genNewsym
  | genFlip
  | genEmit
  | reset
  deriving DecidableEq, Repr

/-- The operations the table gives no selector: each has its fixed place (R95, R97, R98). -/
inductive FixedPlace
  | qRead
  | genInit
  | genEmit
  deriving DecidableEq, Repr

/-- The selector formats of R91 to R97. A selector word does not carry its format: the component it
belongs to gives it. `fixed` stands for the rows of width 0. -/
inductive Format
  | dsel
  | rsel
  | csel
  | asel
  | qsel
  | hsel
  | gsel
  | fixed (p : FixedPlace)
  deriving DecidableEq, Repr

/-- The two components with a state register, as a model fault MF2 names them (R256). -/
inductive Component
  | decoder
  | responder
  deriving DecidableEq, Repr

end Sys2Proof
end

