-- ==== Sys2Proof/WellFormed.lean ====
section
/-!
DEFINITION. Which operations exist under a configuration (R98, R104, R106, R142).
-/

namespace Sys2Proof

/-- The state code is one that R104 calls unused: from N + 4 to 2^SW - 1. -/
def unusedCode (c : Config) (code : Nat) : Bool :=
  decide (c.N + 4 ≤ code ∧ code < 2 ^ c.SW)

/-- The operation exists under the configuration: BIT(i) needs i < N (R106), RSP.ABORT needs the option
(R142), an UNUSED row needs its code to be unused (R104). `decBitN` and `rspBitN` stand only for the
bit states the table has no row of its own for, i ≥ 10. -/
def Instr.wf (c : Config) : Instr → Bool
  | .decBit9 | .rspBit9 => decide (9 < c.N)
  | .decBit8 | .rspBit8 => decide (8 < c.N)
  | .decBit7 | .rspBit7 => decide (7 < c.N)
  | .decBit6 | .rspBit6 => decide (6 < c.N)
  | .decBit5 | .rspBit5 => decide (5 < c.N)
  | .decBit4 | .rspBit4 => decide (4 < c.N)
  | .decBit3 | .rspBit3 => decide (3 < c.N)
  | .decBit2 | .rspBit2 => decide (2 < c.N)
  | .decBit1 | .rspBit1 => decide (1 < c.N)
  | .decBit0 | .rspBit0 => decide (0 < c.N)
  | .decBitN i | .rspBitN i => decide (10 ≤ i ∧ i < c.N)
  | .unusedDsel14 | .unusedRsel14 => unusedCode c 14
  | .unusedDsel15 | .unusedRsel15 => unusedCode c 15
  | .rspAbort => c.rspAbort
  | .decIdle | .decWait1 | .decWait2 | .decNullbit => true
  | .rspIdleHold | .rspIdleGo | .rspWait1 | .rspWait2 | .rspNullbit => true
  | .rspCount | .rspWrap | .accHold | .accAdd | .accEmit => true
  | .qNowrite | .qWriteAdv | .qWriteWrap | .qRead | .hRdwait | .hRdadv => true
  | .genInit | .genSame | .genNewsym | .genFlip | .genEmit | .reset => true

end Sys2Proof
end

