-- ==== Sys2Proof/Decode.lean ====
section
/-!
DEFINITION. The selector decoder (R90 to R98, R104, R106), total on every word of every format, and the
encoder written from the same rules. A selector word is the number whose bits are the word's, bit 0 the
least significant (R11).
-/

namespace Sys2Proof

open Sys2Proof.Machine

/-- Why a selector word selects no operation. -/
inductive DecodeError
  /-- An unused state code that the table has no row for at this width (R104): model fault MF2. -/
  | unusedState (comp : Component) (code : Nat)
  /-- `GSEL = 01` "cannot occur" (R97). -/
  | impossibleGsel
  /-- The word has more bits than its format. -/
  | tooWide (f : Format) (w : Nat)
  deriving DecidableEq, Repr

/-- The number of bits of a format (R91 to R97). -/
def Format.width (c : Config) : Format → Nat
  | .dsel => c.SW + 1
  | .rsel => c.SW + 2
  | .csel => 2
  | .asel => 3
  | .qsel => 3
  | .hsel => 2
  | .gsel => 2
  | .fixed _ => 0

/-- The row DEC.BIT(i) (R106). -/
def decBitInstr (i : Nat) : Instr :=
  match i with
  | 0 => .decBit0
  | 1 => .decBit1
  | 2 => .decBit2
  | 3 => .decBit3
  | 4 => .decBit4
  | 5 => .decBit5
  | 6 => .decBit6
  | 7 => .decBit7
  | 8 => .decBit8
  | 9 => .decBit9
  | n => .decBitN n

/-- The row RSP.BIT(i) (R106). -/
def rspBitInstr (i : Nat) : Instr :=
  match i with
  | 0 => .rspBit0
  | 1 => .rspBit1
  | 2 => .rspBit2
  | 3 => .rspBit3
  | 4 => .rspBit4
  | 5 => .rspBit5
  | 6 => .rspBit6
  | 7 => .rspBit7
  | 8 => .rspBit8
  | 9 => .rspBit9
  | n => .rspBitN n

/-- The Decoder operation of a state code (R91, R98, R104). -/
def decodeDecState (c : Config) (code : Nat) : Except DecodeError Instr :=
  if code = idleCode then .ok .decIdle
  else if code = wait1Code then .ok .decWait1
  else if code = wait2Code then .ok .decWait2
  else if code = nullbitCode then .ok .decNullbit
  else if code ≤ c.N + 3 then .ok (decBitInstr (c.N + 3 - code))
  else if code = 14 then .ok .unusedDsel14
  else if code = 15 then .ok .unusedDsel15
  else .error (.unusedState .decoder code)

/-- The Responder operation of a state code and the wire cs (R92, R98, R104, R106, R142). -/
def decodeRspState (c : Config) (cs : Bool) (code : Nat) : Except DecodeError Instr :=
  if code = idleCode then .ok (if cs then .rspIdleHold else .rspIdleGo)
  else if code ≤ c.N + 3 then
    if c.rspAbort && cs then .ok .rspAbort
    else if code = wait1Code then .ok .rspWait1
    else if code = wait2Code then .ok .rspWait2
    else if code = nullbitCode then .ok .rspNullbit
    else .ok (rspBitInstr (c.N + 3 - code))
  else if code = 14 then .ok .unusedRsel14
  else if code = 15 then .ok .unusedRsel15
  else .error (.unusedState .responder code)

/-- `CSEL` (R93, R98). -/
def decodeCsel (w : Nat) : Instr :=
  if w / 2 = 1 then .reset else if w = 0 then .rspCount else .rspWrap

/-- `ASEL` (R94, R98). -/
def decodeAsel (w : Nat) : Instr :=
  if w / 4 = 1 then .reset
  else if w / 2 = 0 then .accHold
  else if w = 2 then .accAdd
  else .accEmit

/-- `QSEL` (R95, R98). -/
def decodeQsel (w : Nat) : Instr :=
  if w / 4 = 1 then .reset
  else if w / 2 = 0 then .qNowrite
  else if w = 2 then .qWriteAdv
  else .qWriteWrap

/-- `HSEL` (R96, R98). -/
def decodeHsel (w : Nat) : Instr :=
  if w / 2 = 1 then .reset else if w = 0 then .hRdwait else .hRdadv

/-- `GSEL` (R97, R98). -/
def decodeGsel (w : Nat) : Except DecodeError Instr :=
  if w = 0 then .ok .genSame
  else if w = 2 then .ok .genNewsym
  else if w = 3 then .ok .genFlip
  else .error .impossibleGsel

/-- The operation of a selector word (R98). Reset has priority in every format that has an `rst` bit
(R90). -/
def decode (c : Config) (f : Format) (w : Nat) : Except DecodeError Instr :=
  if 2 ^ f.width c ≤ w then .error (.tooWide f w)
  else
    match f with
    | .dsel => if w / 2 ^ c.SW = 1 then .ok .reset else decodeDecState c w
    | .rsel =>
      if w / 2 ^ (c.SW + 1) = 1 then .ok .reset
      else decodeRspState c (decide (w / 2 ^ c.SW = 1)) (w % 2 ^ c.SW)
    | .csel => .ok (decodeCsel w)
    | .asel => .ok (decodeAsel w)
    | .qsel => .ok (decodeQsel w)
    | .hsel => .ok (decodeHsel w)
    | .gsel => decodeGsel w
    | .fixed .qRead => .ok .qRead
    | .fixed .genInit => .ok .genInit
    | .fixed .genEmit => .ok .genEmit

/-- The format an operation is selected in; RESET's row belongs to any format with an `rst` bit, DSEL
stands for them here (R90). -/
def Instr.format : Instr → Format
  | .decIdle | .decWait1 | .decWait2 | .decNullbit => .dsel
  | .decBit9 | .decBit8 | .decBit7 | .decBit6 | .decBit5 => .dsel
  | .decBit4 | .decBit3 | .decBit2 | .decBit1 | .decBit0 | .decBitN _ => .dsel
  | .unusedDsel14 | .unusedDsel15 | .reset => .dsel
  | .rspIdleHold | .rspIdleGo | .rspWait1 | .rspWait2 | .rspNullbit => .rsel
  | .rspBit9 | .rspBit8 | .rspBit7 | .rspBit6 | .rspBit5 => .rsel
  | .rspBit4 | .rspBit3 | .rspBit2 | .rspBit1 | .rspBit0 | .rspBitN _ => .rsel
  | .rspAbort | .unusedRsel14 | .unusedRsel15 => .rsel
  | .rspCount | .rspWrap => .csel
  | .accHold | .accAdd | .accEmit => .asel
  | .qNowrite | .qWriteAdv | .qWriteWrap => .qsel
  | .qRead => .fixed .qRead
  | .hRdwait | .hRdadv => .hsel
  | .genInit => .fixed .genInit
  | .genSame | .genNewsym | .genFlip => .gsel
  | .genEmit => .fixed .genEmit

/-- The row's word with its ignored bits 0 (R91 to R97, opcode_table.json `match`). RSP.ABORT's row leaves
the state free among the used non-IDLE codes; its word here has WAIT1. -/
def encode (c : Config) : Instr → Nat
  | .decIdle => idleCode
  | .decWait1 => wait1Code
  | .decWait2 => wait2Code
  | .decNullbit => nullbitCode
  | .decBit9 => bitCode c 9
  | .decBit8 => bitCode c 8
  | .decBit7 => bitCode c 7
  | .decBit6 => bitCode c 6
  | .decBit5 => bitCode c 5
  | .decBit4 => bitCode c 4
  | .decBit3 => bitCode c 3
  | .decBit2 => bitCode c 2
  | .decBit1 => bitCode c 1
  | .decBit0 => bitCode c 0
  | .decBitN i => bitCode c i
  | .unusedDsel14 => 14
  | .unusedDsel15 => 15
  | .rspIdleHold => 2 ^ c.SW
  | .rspIdleGo => idleCode
  | .rspWait1 => wait1Code
  | .rspWait2 => wait2Code
  | .rspNullbit => nullbitCode
  | .rspBit9 => bitCode c 9
  | .rspBit8 => bitCode c 8
  | .rspBit7 => bitCode c 7
  | .rspBit6 => bitCode c 6
  | .rspBit5 => bitCode c 5
  | .rspBit4 => bitCode c 4
  | .rspBit3 => bitCode c 3
  | .rspBit2 => bitCode c 2
  | .rspBit1 => bitCode c 1
  | .rspBit0 => bitCode c 0
  | .rspBitN i => bitCode c i
  | .rspAbort => 2 ^ c.SW + wait1Code
  | .unusedRsel14 => 14
  | .unusedRsel15 => 15
  | .rspCount => 0
  | .rspWrap => 1
  | .accHold => 0
  | .accAdd => 2
  | .accEmit => 3
  | .qNowrite => 0
  | .qWriteAdv => 2
  | .qWriteWrap => 3
  | .qRead => 0
  | .hRdwait => 0
  | .hRdadv => 1
  | .genInit => 0
  | .genSame => 0
  | .genNewsym => 2
  | .genFlip => 3
  | .genEmit => 0
  | .reset => 2 ^ c.SW

/-- The format the host's untagged word of nbits bits is read in, and its bits there (log entry 18). A
selector word does not carry its format; where the number of bits leaves several formats, this names
one of them: 1 bit RESET (as the top bit of DSEL), 2 bits CSEL (or GSEL for 10 and 11, which CSEL gives
to RESET), 3 bits ASEL, 5 bits DSEL, 6 bits RSEL, any other number DSEL unless bit 4 or 5 is set. -/
def tableFormat (nbits w : Nat) : Format × Nat :=
  if nbits = 1 then (.dsel, 16 * (w % 2))
  else if nbits = 2 then (if w % 4 < 2 then (.csel, w % 4) else (.gsel, w % 4))
  else if nbits = 3 then (.asel, w % 8)
  else if nbits = 5 then (.dsel, w % 32)
  else if nbits = 6 then (.rsel, w % 64)
  else if w % 64 < 16 then (.dsel, w % 64)
  else (.rsel, w % 64)

/-- The operation this decoder reads from a word of opcode_table.json, whose rows are those of the
scenario width N = 10 with the default options (R106). -/
def decodeTableWord (nbits w : Nat) : Option Instr :=
  match decode Config.scenario (tableFormat nbits w).1 (tableFormat nbits w).2 with
  | .ok i => some i
  | .error _ => none

end Sys2Proof
end

