-- ==== Sys2Proof/Machine/Wave.lean ====
section
/-!
DEFINITION. The Generator's arithmetic (R110 to R122), free of the machine's state. The phase and the
arguments of COS are kept in turns, that is divided by 2π, as exact combinations x·f1 + y·f0 of the two
tones with rational x and y, whatever real numbers the tones are (log entry 9).
-/

namespace Sys2Proof

/-- The real number a tone is. -/
def Tone.value : Tone → ℝ
  | .rational q => (q : ℝ)
  | .real true n => (Config.toneDraw n : ℝ) * Config.toneDraw n
  | .real false n => -((Config.toneDraw n : ℝ) * Config.toneDraw n)

/-- "f <= 0" (R251), for the check of a tone. -/
def Tone.nonpositive : Tone → Bool
  | .rational q => decide (q ≤ 0)
  | .real positive _ => !positive

/-- The product of a rational number and a tone, where it is a known rational number. -/
def Tone.scaled? (k : Rat) (f : Tone) : Option Rat :=
  if k = 0 then some 0
  else
    match f with
    | .rational q => some (k * q)
    | .real _ _ => none

/-- A number of turns one·f1 + zero·f0. -/
structure Turns where
  one : Rat
  zero : Rat
  deriving DecidableEq, Repr

/-- k times the tone of bit b. -/
def Turns.ofTone (k : Rat) (b : Bool) : Turns :=
  if b then { one := k, zero := 0 } else { one := 0, zero := k }

def Turns.add (a b : Turns) : Turns where
  one := a.one + b.one
  zero := a.zero + b.zero

def Turns.sub (a b : Turns) : Turns where
  one := a.one - b.one
  zero := a.zero - b.zero

/-- The real number of turns. -/
def Turns.value (c : Config) (a : Turns) : ℝ :=
  (a.one : ℝ) * c.f1.value + (a.zero : ℝ) * c.f0.value

/-- The number of turns, where it is a known rational number. -/
def Turns.exact? (c : Config) (a : Turns) : Option Rat :=
  match c.f1.scaled? a.one, c.f0.scaled? a.zero with
  | some x, some y => some (x + y)
  | _, _ => none

namespace Machine

/-- The Generator's variables (R112): `last_sym`, `cur_bit` and `phase`, the last in turns. -/
structure GenVars where
  lastSym : Nat
  curBit : Bool
  phase : Turns
  deriving DecidableEq, Repr

/-- `coeff(t) / 2π = t * C / F` (R110). -/
def genTurns (c : Config) (t : Nat) : Rat :=
  (t : Rat) * (c.C : Rat) / (c.F : Rat)

/-- `sym(t) = (t * R * C) // F` (R110). -/
def genSym (c : Config) (t : Nat) : Nat :=
  t * c.R * c.C / c.F

/-- `freq(b)`: the tone of a bit (R110). -/
def genFreq (c : Config) (b : Bool) : Tone :=
  if b then c.f1 else c.f0

/-- The argument of the cosine at index t, in turns (R116): `coeff(t) * freq(cur_bit) + phase`. -/
def genArg (c : Config) (t : Nat) (v : GenVars) : Turns :=
  (Turns.ofTone (genTurns c t) v.curBit).add v.phase

/-- A value cut to [-1, 1]. -/
def clampUnit (v : Rat) : Rat :=
  if v < -1 then -1 else if 1 < v then 1 else v

/-- The value the configuration lists for COS at an argument. -/
def cosListed (c : Config) (a : Turns) : Option Rat :=
  match a.exact? c with
  | some q => c.cos.points.lookup q
  | none => none

/-- `COS`: a total function into [-1, 1] (R9), of the argument in turns: what the configuration lists, at
any other argument the configuration's free function. -/
def cosTurns (c : Config) (a : Turns) : Rat :=
  clampUnit ((cosListed c a).getD (Config.cosDraw c.cos.draw (a.value c)))

/-- `trunc(x)`: toward zero (R116). -/
def truncQ (x : Rat) : Int :=
  if 0 ≤ x then x.floor else -(-x).floor

/-- `round_half_even(x)`: the nearest integer, and of two equally near the even one (R116). -/
def roundHalfEven (x : Rat) : Int :=
  let r := x.floor
  let d := x - (r : Rat)
  if d < 1 / 2 then r
  else if 1 / 2 < d then r + 1
  else if r % 2 = 0 then r else r + 1

/-- `QUANT(x)` (R116). -/
def quant (m : QuantRound) (x : Rat) : Int :=
  match m with
  | .trunc => truncQ x
  | .nearestEven => roundHalfEven x

/-- `q = QUANT(v * (2^(N-1) - 1)) + QUANT_BIAS` for a cosine value v (R103, R116). -/
def quantise (c : Config) (v : Rat) : Int :=
  quant c.quantRound (v * (((2 ^ (c.N - 1) : Nat) : Rat) - 1)) + c.quantBias

/-- The quantised sample of index t (R116). -/
def genSample (c : Config) (t : Nat) (v : GenVars) : Int :=
  quantise c (cosTurns c (genArg c t v))

/-- GEN.INIT's variables for the bit of symbol 0 (R112). -/
def genStart (b : Bool) : GenVars where
  lastSym := 0
  curBit := b
  phase := { one := 0, zero := 0 }

/-- GEN.NEWSYM at index t (R114). -/
def genNewsymVars (c : Config) (t : Nat) (v : GenVars) : GenVars :=
  { v with lastSym := genSym c t }

/-- GEN.FLIP at index t (R115) to the bit b: `phase + coeff(t) * (freq(cur_bit) - freq(new_bit))`. -/
def genFlipVars (c : Config) (t : Nat) (b : Bool) (v : GenVars) : GenVars where
  lastSym := genSym c t
  curBit := b
  phase := v.phase.add
    ((Turns.ofTone (genTurns c t) v.curBit).sub (Turns.ofTone (genTurns c t) b))

/-- The variables after the GSEL operation of index t (R113, R114, R115, R117). -/
def genIndexVars (c : Config) (t : Nat) (v : GenVars) : GenVars :=
  if genSym c t = v.lastSym then v
  else
    match c.bitOf (genSym c t) with
    | none => v
    | some b => if b = v.curBit then genNewsymVars c t v else genFlipVars c t b v

/-- The entries of n indices from t on (R117). -/
def genEntriesFrom (c : Config) : Nat → Nat → GenVars → List (Bool × Int)
  | 0, _, _ => []
  | n + 1, t, v =>
    let v' := genIndexVars c t v
    (v'.curBit, genSample c t v') :: genEntriesFrom c n (t + 1) v'

/-- The whole table of R117, for a configuration that raises no construction error on the way. -/
def genEntries (c : Config) : List (Bool × Int) :=
  genEntriesFrom c c.L 0 (genStart (c.bits.headD false))

end Machine

end Sys2Proof
end

