-- ==== Sys2Proof/Machine/State.lean ====
section
/-!
DEFINITION. The machine's state (10_state.md, R29 to R51), plain data holding everything the spec gives
the block, the faults and refusals a step can end in, and the state after reset (R270).
-/

namespace Sys2Proof.Machine

/-- The queue storage QMEM: the value of slot i at position i, K whole entries of T bits, no bytes (R41,
R72, R74; log entry 23). -/
abbrev Memory := List Int

/-- The registers of the `sys` domain and QMEM (R32 to R43). -/
structure SysRegs where
  /-- `dec_state` (R32). -/
  decState : Nat
  /-- `dec_cs` (R33); true is 1, "asserted (device not selected)". -/
  decCs : Bool
  /-- `dec_valid` (R34). -/
  decValid : Bool
  /-- `dec_sample` (R35). -/
  decSample : Int
  /-- `acc_cnt` (R36). -/
  accCnt : Nat
  /-- `acc_sum` (R37). -/
  accSum : Int
  /-- `acc_out` (R38). -/
  accOut : Int
  /-- `acc_valid` (R39). -/
  accValid : Bool
  /-- `q_wr` (R40). -/
  qWr : Nat
  /-- QMEM (R41). -/
  qmem : Memory
  /-- `h_rd` (R42). -/
  hRd : Nat
  /-- `h_rdcnt` (R43). -/
  hRdcnt : Nat
  deriving DecidableEq, Repr

/-- The registers of the `adc` domain (R44 to R48). -/
structure AdcRegs where
  /-- `rsp_state` (R44). -/
  rspState : Nat
  /-- `rsp_cnt` (R45). -/
  rspCnt : Nat
  /-- `rsp_idx` (R46). -/
  rspIdx : Nat
  /-- `rsp_hold_sample` (R47). -/
  rspHoldSample : Nat
  /-- `rsp_hold_bit` (R48). -/
  rspHoldBit : Bool
  deriving DecidableEq, Repr

/-- Where the block is between the choice of a configuration and its ticks (R252, R274; log entry 12). -/
inductive Stage
  /-- The proposal handed over is checked next (R252 checks 1 to 4). -/
  | construct (p : Proposal)
  /-- GEN.INIT is next (R112). -/
  | genInit
  /-- The GSEL operation of index t is next (R113 to R115). -/
  | genSelect
  /-- GEN.EMIT of index t is next (R116). -/
  | genEmit
  /-- Checks 5 to 7 of R252 are next. -/
  | finish
  /-- The block exists; a step is one tick (R230). -/
  | run
  deriving DecidableEq, Repr

/-- The state of the block. -/
structure State where
  /-- The configuration, which no step changes once it is accepted (R29, R50). -/
  cfg : Config
  stage : Stage
  /-- The current values of the `sys` domain's registers. -/
  sys : SysRegs
  /-- Their pending next values (R13). -/
  sysNext : SysRegs
  /-- The current values of the `adc` domain's registers. -/
  adc : AdcRegs
  /-- Their pending next values (R13). -/
  adcNext : AdcRegs
  /-- GTAB: entry i is at position i (R71). -/
  gtab : List (Bool × Int)
  /-- The Generator's index t (R110). -/
  genT : Nat
  /-- The Generator's variables (R112). -/
  gen : GenVars
  /-- The `rst` inputs the environment gives to the coming ticks; 0 once it lists none (R237, R238; log
  entry 11). -/
  rstIn : List Bool
  /-- The port `rst` in the tick (R231). -/
  rst : Bool
  /-- What `q_out` carried when the last tick evaluated its wires (R213; log entry 14). -/
  qOutRead : Int
  /-- How many free values reads outside the queue have taken (R73; log entry 5). -/
  draws : Nat
  /-- The number of the tick (R230, R256; log entry 10). -/
  tick : Nat
  deriving DecidableEq, Repr

/-- The model faults (R256). -/
inductive Fault
  /-- MF1: RSP.WAIT1 loads an entry at an index past the table. Raised by execRspWait1, with the index
  and the number of the tick. Safe: the spec itself gives the step no meaning. -/
  | mf1OutOfTable (idx tick : Nat)
  /-- MF2: an FSM state register holds an unused code. Raised by the UNUSED rows and by the selection.
  Safe: the spec itself gives the step no meaning. -/
  | mf2UnreachableState (comp : Component) (code : Nat)
  /-- The Queue's write cursor names no slot. Raised by the two Q.WRITE rows. Safe: no such slot exists
  (R72), and no state a run reaches has such a cursor (R40; log entry 19). -/
  | queueWriteOutside (slot : Nat)
  deriving DecidableEq, Repr

/-- The parameters a construction error can name (R252). -/
inductive Param
  | D | K | B | P | N | C | F | R | f1 | f0 | rdPeriod | lenBits | T
  deriving DecidableEq, Repr

/-- What CE2 records: "the parameter or index t and value" (R251). -/
inductive WidthProblem
  | truncWidth (T W : Nat)
  | tableValue (t : Nat) (q : Int)
  deriving DecidableEq, Repr

/-- What CE4 records: "the parameter or t and sym(t)" (R251). -/
inductive ConfigProblem
  | param (p : Param)
  | symbol (t s : Nat)
  | tableLength (n : Nat)
  | tableBit (t : Nat) (b : Int)
  | queueInit (i : Nat) (v : Int)
  deriving DecidableEq, Repr

/-- The wires of the block (R232). -/
inductive Wire
  | sclk | cs | din | accInValid | accInData | qInValid | qInData | qReadIndex | qOut | dataValid
  deriving DecidableEq, Repr

/-- Why a step is refused. -/
inductive Refusal
  /-- An operation without a meaning yet. Raised by exec's rejected arms only. Safe. -/
  | notModelled (mnemonic : String)
  /-- CE1 (R251). Raised by the last construction step. Safe: construction refuses the configuration. -/
  | ce1CombCycle (w : Wire)
  /-- CE2 (R251). Raised by construction and GEN.EMIT. Safe: construction refuses the configuration. -/
  | ce2WidthTooSmall (p : WidthProblem)
  /-- CE3 (R251). Raised by construction and GEN.INIT. Safe: construction refuses the configuration. -/
  | ce3ZeroCount (p : Param)
  /-- CE4 (R251). Raised by construction, GEN.NEWSYM and GEN.FLIP. Safe: construction refuses the
  configuration. -/
  | ce4BadConfig (p : ConfigProblem)
  /-- The row BIT(i) does not exist for i ≥ N (R106). Raised by the bit rows of both FSMs, never by a
  step. Safe. -/
  | noSuchBit (i : Nat)
  /-- RSP.ABORT does not exist with RSP_ABORT = false (R142). Raised by execRspAbort, never by a step.
  Safe. -/
  | abortAbsent
  /-- A selector word that selects nothing: GSEL = 01 or a word wider than its format (R97). Raised by
  the selection, never by a step. Safe. -/
  | noSelection (f : Format)
  deriving DecidableEq, Repr

/-- The `sys` registers after reset (10_state.md section 5, R272), with the queue's content m. -/
def SysRegs.reset (m : Memory) : SysRegs where
  decState := idleCode
  decCs := true
  decValid := false
  decSample := 0
  accCnt := 0
  accSum := 0
  accOut := 0
  accValid := false
  qWr := 0
  qmem := m
  hRd := 0
  hRdcnt := 0

/-- The `adc` registers after reset (10_state.md section 5, R272). -/
def AdcRegs.reset : AdcRegs where
  rspState := idleCode
  rspCnt := 0
  rspIdx := 0
  rspHoldSample := 0
  rspHoldBit := false

/-- The power-on content of slot i: what the configuration lists, else a free T-bit value (R41, I1). -/
def qmemInitial (c : Config) (i : Nat) : Int :=
  match c.qmemInit[i]? with
  | some v => v
  | none => wrap c.T (Config.qmemDraw i)

/-- QMEM at power-on: `QMEM_INIT` (R41, R270). -/
def Memory.initial (c : Config) : Memory :=
  (List.range c.K).map (qmemInitial c)

/-- The Generator's variables when it is not running (log entry 12). -/
def GenVars.idle : GenVars where
  lastSym := 0
  curBit := false
  phase := { one := 0, zero := 0 }

/-- The power-on state S_0 of a configuration and a table (R270). -/
def State.powerOn (c : Config) (table : List (Bool × Int)) : State where
  cfg := c
  stage := .run
  sys := SysRegs.reset (Memory.initial c)
  sysNext := SysRegs.reset (Memory.initial c)
  adc := AdcRegs.reset
  adcNext := AdcRegs.reset
  gtab := table
  genT := 0
  gen := GenVars.idle
  rstIn := []
  rst := false
  qOutRead := qmemInitial c 0
  draws := 0
  tick := 0

/-- A proposal before its construction (R238, R274). -/
def State.unbuilt (p : Proposal) : State :=
  { State.powerOn p.toConfig [] with stage := .construct p }

/-- The state after reset: S_0 (R270) of the scenario's configuration (log entry 2), its table the
Generator's (R117). -/
def State.reset : State :=
  State.powerOn Config.scenario (genEntries Config.scenario)

end Sys2Proof.Machine
end

