-- ==== Sys2Proof/Machine/Ops.lean ====
section
/-!
DEFINITION. The named operations on the state: pending writes and commits (R13, R16, R79), the queue
storage and the table (R17, R71 to R73), the wires and ports (R136, R231, R232), RESET of the pending
registers (R272), and the composition of outcomes. The block has no exceptions to take (R250, R259); what
a step can end in besides a next state are the model faults and refusals of State.lean.
-/

namespace Sys2Proof.Machine

/-- What a step of this machine answers. -/
abbrev Result := Host.Outcome State Fault Refusal

/-- Goes on with f from a next state; a fault or a refusal stays ("a run reports only the first fault",
R257). -/
def andThen (o : Result) (f : State → Result) : Result :=
  match o with
  | .next s => f s
  | .fault r => .fault r
  | .refused r => .refused r

/-! ### Registers: pending values and commits (R13) -/

/-- Sets the pending `sys` values. -/
def State.setSysNext (s : State) (r : SysRegs) : State :=
  { s with sysNext := r }

/-- Sets the pending `adc` values. -/
def State.setAdcNext (s : State) (r : AdcRegs) : State :=
  { s with adcNext := r }

/-- The `sys` edge's commit: every pending value at once (R13, R79). -/
def State.commitSys (s : State) : State :=
  { s with sys := s.sysNext }

/-- The `adc` edge's commit. -/
def State.commitAdc (s : State) : State :=
  { s with adc := s.adcNext }

/-- The start of a tick: the environment's `rst` for it is taken (R237, R238), and every pending value is
the current one, because "a register that no rule of the current tick assigns keeps its value" (R13). -/
def State.beginTick (s : State) : State :=
  { s with
    rst := s.rstIn.headD false
    rstIn := s.rstIn.tail
    sysNext := s.sys
    adcNext := s.adc
    tick := s.tick + 1 }

/-- Records what the wire `q_out` carries and how many free values have been taken. -/
def State.setRead (s : State) (v : Int) (draws : Nat) : State :=
  { s with qOutRead := v, draws := draws }

/-- Sets the Generator's variables. -/
def State.setGen (s : State) (v : GenVars) : State :=
  { s with gen := v }

/-- Sets the Generator's table. -/
def State.setTable (s : State) (t : List (Bool × Int)) : State :=
  { s with gtab := t }

/-- Sets the Generator's index. -/
def State.setGenT (s : State) (t : Nat) : State :=
  { s with genT := t }

/-- Accepts a configuration (R252). -/
def State.setCfg (s : State) (c : Config) : State :=
  { s with cfg := c }

/-- Moves between the stages of construction. -/
def State.setStage (s : State) (g : Stage) : State :=
  { s with stage := g }

/-- RESET's writes (R272): every register's pending value is its reset value, and QMEM is not written. -/
def State.resetNext (s : State) : State :=
  (s.setSysNext (SysRegs.reset s.sys.qmem)).setAdcNext AdcRegs.reset

/-! ### Storage (R17, R71, R72, R73) -/

/-- `MemRead(QMEM, i)`; none where the queue has no slot i (R73). -/
def Memory.read (m : Memory) (i : Nat) : Option Int :=
  m[i]?

/-- `MemWrite(QMEM, i, v)` on the pending storage (R17). -/
def Memory.write (m : Memory) (i : Nat) (v : Int) : Memory :=
  m.set i v

/-- The canonical form of QMEM: exactly K slots, every value a signed T-bit one (R41, R72). -/
def Memory.wf (c : Config) (m : Memory) : Bool :=
  decide (m.length = c.K) && m.all (fitsSigned c.T)

/-- `MemRead(GTAB, i)`; none where the table has no entry i (R71, R73). -/
def tableRead (t : List (Bool × Int)) (i : Nat) : Option (Bool × Int) :=
  t[i]?

/-- `GTAB[t] := e` while the Generator computes the table (R116). -/
def tablePut (tbl : List (Bool × Int)) (t : Nat) (e : Bool × Int) : List (Bool × Int) :=
  tbl.take t ++ e :: tbl.drop (t + 1)

/-! ### Wires and ports (R136, R231, R232) -/

/-- The data line as a function of the Responder's registers (R136). -/
def dout (c : Config) (r : AdcRegs) : Bool :=
  if r.rspState ≤ wait2Code then true
  else if r.rspState = nullbitCode then false
  else if r.rspState ≤ c.N + 3 then r.rspHoldSample.testBit (c.N + 3 - r.rspState)
  else Config.strayLine r.rspState

/-- `din := dout` (R232). -/
def State.din (s : State) : Bool :=
  dout s.cfg s.adc

/-- `cs := dec_cs` (R232). -/
def State.cs (s : State) : Bool :=
  s.sys.decCs

/-- `q_out` (R213): the slot at the read index, or the next free value, cut to T bits, where there is
none. -/
def State.qOut (s : State) : Int :=
  match Memory.read s.sys.qmem s.sys.hRd with
  | some v => v
  | none => wrap s.cfg.T (Config.readDraw s.draws)

/-- The port `data_valid` (R231). -/
def State.dataValid (s : State) : Bool :=
  s.sys.decValid

end Sys2Proof.Machine
end

