-- ==== Sys2Proof/Machine/Operands.lean ====
section
/-!
DEFINITION. The operand forms of R99 to R102: the Decoder's positional bit write, the Responder's held
pattern, the Accumulator's wrapped sum and the Queue's truncation. (The Generator's quantisation, R103,
is in Wave.lean.)
-/

namespace Sys2Proof.Machine

/-- `dec_sample` with bit i replaced by `din` (R99, R164, R165). -/
def captured (s : State) (i : Nat) : Int :=
  sext s.cfg.N (setBit (pat s.cfg.N s.sys.decSample) i s.din)

/-- The pattern the load stores: `q mod 2^N` (R100, R131). -/
def heldPattern (c : Config) (q : Int) : Nat :=
  pat c.N q

/-- `wrap_W(acc_sum + in_data)` (R101, R191, R192). -/
def accTotal (s : State) : Int :=
  wrap s.cfg.W (s.sys.accSum + s.sys.decSample)

/-- `TRUNC(v)` (R102, R211): the T most significant of the W bits, or the T least significant. -/
def truncEntry (c : Config) (v : Int) : Int :=
  match c.truncSelect with
  | .msb => sext c.T (pat c.W v / 2 ^ (c.W - c.T))
  | .lsb => wrap c.T v

end Sys2Proof.Machine
end

