-- ==== Sys2Proof/Machine/Accumulator.lean ====
section
/-!
DEFINITION. The Accumulator's operations (43_accumulator.md, R190 to R193); the selection of R190 is the
selector ASEL.
-/

namespace Sys2Proof.Machine

/-- ACC.HOLD (R193): the output-valid flag is written low and nothing else. -/
def execAccHold (s : State) : Result :=
  .next (s.setSysNext { s.sysNext with accValid := false })

/-- ACC.ADD (R191). -/
def execAccAdd (s : State) : Result :=
  .next (s.setSysNext { s.sysNext with
    accSum := accTotal s
    accCnt := cut s.cfg.CW (s.sys.accCnt + 1)
    accValid := false })

/-- ACC.EMIT (R192): the boundary sample goes into the output, the sum and the counter restart at 0. -/
def execAccEmit (s : State) : Result :=
  .next (s.setSysNext { s.sysNext with
    accOut := accTotal s
    accValid := true
    accSum := 0
    accCnt := 0 })

end Sys2Proof.Machine
end

