-- ==== Sys2Proof/Machine/DecoderFsm.lean ====
section
/-!
DEFINITION. The Decoder FSM's operations (42_decoder.md, R160 to R165). Each sets pending `sys` values
from the pre-edge registers (R13).
-/

namespace Sys2Proof.Machine

/-- A next state of the Decoder FSM and nothing else. -/
def decGoto (code : Nat) (s : State) : Result :=
  .next (s.setSysNext { s.sysNext with decState := code })

/-- DEC.BIT(i), 1 ≤ i ≤ N-1 (R164): bit i is captured and the FSM goes to BIT(i-1). -/
def decBitOp (i : Nat) (s : State) : Result :=
  if 1 ≤ i ∧ i < s.cfg.N then
    .next (s.setSysNext { s.sysNext with
      decSample := captured s i
      decState := bitCode s.cfg (i - 1) })
  else .refused (.noSuchBit i)

/-- DEC.IDLE (R160). -/
def execDecIdle (s : State) : Result :=
  .next (s.setSysNext { s.sysNext with decCs := false, decValid := false, decState := wait1Code })

/-- DEC.WAIT1 (R161). -/
def execDecWait1 (s : State) : Result := decGoto wait2Code s

/-- DEC.WAIT2 (R162). -/
def execDecWait2 (s : State) : Result := decGoto nullbitCode s

/-- DEC.NULLBIT (R163). -/
def execDecNullbit (s : State) : Result := decGoto (bitCode s.cfg (s.cfg.N - 1)) s

/-- DEC.BIT9 (R164 with i = 9). -/
def execDecBit9 (s : State) : Result := decBitOp 9 s

/-- DEC.BIT8 (R164 with i = 8). -/
def execDecBit8 (s : State) : Result := decBitOp 8 s

/-- DEC.BIT7 (R164 with i = 7). -/
def execDecBit7 (s : State) : Result := decBitOp 7 s

/-- DEC.BIT6 (R164 with i = 6). -/
def execDecBit6 (s : State) : Result := decBitOp 6 s

/-- DEC.BIT5 (R164 with i = 5). -/
def execDecBit5 (s : State) : Result := decBitOp 5 s

/-- DEC.BIT4 (R164 with i = 4). -/
def execDecBit4 (s : State) : Result := decBitOp 4 s

/-- DEC.BIT3 (R164 with i = 3). -/
def execDecBit3 (s : State) : Result := decBitOp 3 s

/-- DEC.BIT2 (R164 with i = 2). -/
def execDecBit2 (s : State) : Result := decBitOp 2 s

/-- DEC.BIT1 (R164 with i = 1). -/
def execDecBit1 (s : State) : Result := decBitOp 1 s

/-- DEC.BIT(i) for i ≥ 10 (R164, R106). -/
def execDecBitN (i : Nat) (s : State) : Result := decBitOp i s

/-- DEC.BIT0 (R165). -/
def execDecBit0 (s : State) : Result :=
  .next (s.setSysNext { s.sysNext with
    decSample := captured s 0
    decValid := true
    decCs := true
    decState := idleCode })

/-- UNUSED.DSEL14: "the step is the model fault MF2" (R104, R256). -/
def execUnusedDsel14 (_s : State) : Result := .fault (.mf2UnreachableState .decoder 14)

/-- UNUSED.DSEL15: "the step is the model fault MF2" (R104, R256). -/
def execUnusedDsel15 (_s : State) : Result := .fault (.mf2UnreachableState .decoder 15)

end Sys2Proof.Machine
end

