-- ==== Sys2Proof/Machine/Generator.lean ====
section
/-!
DEFINITION. The Generator's operations (40_generator.md, R112 to R116), performed before construction on
the Generator's variables, index and table.
-/

namespace Sys2Proof.Machine

/-- GEN.INIT (R112). Without a bit of symbol 0 it is CE3: "B = 0 is construction error CE3". -/
def execGenInit (s : State) : Result :=
  match s.cfg.bitOf 0 with
  | some b => .next (((s.setGen (genStart b)).setGenT 0).setTable [])
  | none => .refused (.ce3ZeroCount .B)

/-- GEN.SAME (R113): "no variable changes". -/
def execGenSame (s : State) : Result := .next s

/-- GEN.NEWSYM (R114); CE4 for a symbol past the sequence (R120). -/
def execGenNewsym (s : State) : Result :=
  match s.cfg.bitOf (genSym s.cfg s.genT) with
  | some _ => .next (s.setGen (genNewsymVars s.cfg s.genT s.gen))
  | none => .refused (.ce4BadConfig (.symbol s.genT (genSym s.cfg s.genT)))

/-- GEN.FLIP (R115); CE4 for a symbol past the sequence (R120). -/
def execGenFlip (s : State) : Result :=
  match s.cfg.bitOf (genSym s.cfg s.genT) with
  | some b => .next (s.setGen (genFlipVars s.cfg s.genT b s.gen))
  | none => .refused (.ce4BadConfig (.symbol s.genT (genSym s.cfg s.genT)))

/-- GEN.EMIT (R116); CE2 for a sample outside N signed bits (R122). -/
def execGenEmit (s : State) : Result :=
  if fitsSigned s.cfg.N (genSample s.cfg s.genT s.gen) then
    .next (s.setTable
      (tablePut s.gtab s.genT (s.gen.curBit, genSample s.cfg s.genT s.gen)))
  else .refused (.ce2WidthTooSmall (.tableValue s.genT (genSample s.cfg s.genT s.gen)))

end Sys2Proof.Machine
end

