-- ==== Sys2Proof/Machine/Harness.lean ====
section
/-!
DEFINITION. The Harness's read cursor (45_harness.md, R235, R236) and RESET (70_reset_and_hazards.md,
R272).
-/

namespace Sys2Proof.Machine

/-- H.RDWAIT (R235). -/
def execHRdwait (s : State) : Result :=
  .next (s.setSysNext { s.sysNext with hRdcnt := cut s.cfg.PW (s.sys.hRdcnt + 1) })

/-- H.RDADV (R236): the read cursor wraps on overflow of its width. -/
def execHRdadv (s : State) : Result :=
  .next (s.setSysNext { s.sysNext with
    hRdcnt := 0
    hRd := cut s.cfg.QW (s.sys.hRd + 1) })

/-- RESET (R272). -/
def execReset (s : State) : Result := .next s.resetNext

end Sys2Proof.Machine
end

