-- ==== Sys2Proof/Machine/Queue.lean ====
section
/-!
DEFINITION. The Queue's operations (44_queue.md, R210 to R213).
-/

namespace Sys2Proof.Machine

/-- The write of Q.WRITE with the cursor's next value (R211). A cursor that names no slot is a fault of
the model: there is nothing to write (R72; log entry 19). -/
def queueWrite (wr : Nat) (s : State) : Result :=
  if s.sys.qWr < s.sys.qmem.length then
    .next (s.setSysNext { s.sysNext with
      qmem := Memory.write s.sysNext.qmem s.sys.qWr (truncEntry s.cfg s.sys.accOut)
      qWr := wr })
  else .fault (.queueWriteOutside s.sys.qWr)

/-- Q.NOWRITE (R212). -/
def execQNowrite (s : State) : Result := .next s

/-- Q.WRITE with the cursor advancing (R211, QSEL = 010). -/
def execQWriteAdv (s : State) : Result := queueWrite (cut s.cfg.QW (s.sys.qWr + 1)) s

/-- Q.WRITE with the cursor wrapping to 0 (R211, QSEL = 011). -/
def execQWriteWrap (s : State) : Result := queueWrite 0 s

/-- Q.READ (R213): the wire `q_out` is evaluated from the pre-edge storage; a read outside the K slots
takes a fresh free value (R73). -/
def execQRead (s : State) : Result :=
  match Memory.read s.sys.qmem s.sys.hRd with
  | some v => .next (s.setRead v s.draws)
  | none => .next (s.setRead (wrap s.cfg.T (Config.readDraw s.draws)) (s.draws + 1))

end Sys2Proof.Machine
end

