-- ==== Sys2Proof/Machine/Responder.lean ====
section
/-!
DEFINITION. The Responder's operations (41_responder.md, R130 to R135, R140 to R142). Each sets pending
`adc` values from the pre-edge registers (R13). Its output is the wire `dout` of Ops.lean (R136).
-/

namespace Sys2Proof.Machine

/-- A next state of the Responder FSM and nothing else. -/
def rspGoto (code : Nat) (s : State) : Result :=
  .next (s.setAdcNext { s.adcNext with rspState := code })

/-- RSP.BIT(i), 1 ≤ i ≤ N-1 (R134). -/
def rspBitOp (i : Nat) (s : State) : Result :=
  if 1 ≤ i ∧ i < s.cfg.N then rspGoto (bitCode s.cfg (i - 1)) s else .refused (.noSuchBit i)

/-- RSP.IDLE with cs = 1: no next state, the FSM holds (R130). -/
def execRspIdleHold (s : State) : Result := .next s

/-- RSP.IDLE with cs = 0 (R130). -/
def execRspIdleGo (s : State) : Result := rspGoto wait1Code s

/-- RSP.WAIT1 (R131): the load, at the pre-edge index; MF1 past the table (R256). -/
def execRspWait1 (s : State) : Result :=
  match tableRead s.gtab s.adc.rspIdx with
  | none => .fault (.mf1OutOfTable s.adc.rspIdx s.tick)
  | some (b, q) =>
    .next (s.setAdcNext { s.adcNext with
      rspHoldBit := b
      rspHoldSample := heldPattern s.cfg q
      rspState := wait2Code })

/-- RSP.WAIT2 (R132). -/
def execRspWait2 (s : State) : Result := rspGoto nullbitCode s

/-- RSP.NULLBIT (R133). -/
def execRspNullbit (s : State) : Result := rspGoto (bitCode s.cfg (s.cfg.N - 1)) s

/-- RSP.BIT9 (R134 with i = 9). -/
def execRspBit9 (s : State) : Result := rspBitOp 9 s

/-- RSP.BIT8 (R134 with i = 8). -/
def execRspBit8 (s : State) : Result := rspBitOp 8 s

/-- RSP.BIT7 (R134 with i = 7). -/
def execRspBit7 (s : State) : Result := rspBitOp 7 s

/-- RSP.BIT6 (R134 with i = 6). -/
def execRspBit6 (s : State) : Result := rspBitOp 6 s

/-- RSP.BIT5 (R134 with i = 5). -/
def execRspBit5 (s : State) : Result := rspBitOp 5 s

/-- RSP.BIT4 (R134 with i = 4). -/
def execRspBit4 (s : State) : Result := rspBitOp 4 s

/-- RSP.BIT3 (R134 with i = 3). -/
def execRspBit3 (s : State) : Result := rspBitOp 3 s

/-- RSP.BIT2 (R134 with i = 2). -/
def execRspBit2 (s : State) : Result := rspBitOp 2 s

/-- RSP.BIT1 (R134 with i = 1). -/
def execRspBit1 (s : State) : Result := rspBitOp 1 s

/-- RSP.BIT(i) for i ≥ 10 (R134, R106). -/
def execRspBitN (i : Nat) (s : State) : Result := rspBitOp i s

/-- RSP.BIT0 (R135): the return to IDLE, without a look at cs (R144). -/
def execRspBit0 (s : State) : Result := rspGoto idleCode s

/-- RSP.ABORT (R142), which exists only with the option: no load is made. -/
def execRspAbort (s : State) : Result :=
  if s.cfg.rspAbort then rspGoto idleCode s else .refused .abortAbsent

/-- UNUSED.RSEL14: "the step is the model fault MF2" (R104, R256). -/
def execUnusedRsel14 (_s : State) : Result := .fault (.mf2UnreachableState .responder 14)

/-- UNUSED.RSEL15: "the step is the model fault MF2" (R104, R256). -/
def execUnusedRsel15 (_s : State) : Result := .fault (.mf2UnreachableState .responder 15)

/-- RSP.COUNT (R140). -/
def execRspCount (s : State) : Result :=
  .next (s.setAdcNext { s.adcNext with rspCnt := cut s.cfg.RW (s.adc.rspCnt + 1) })

/-- RSP.WRAP (R141). -/
def execRspWrap (s : State) : Result :=
  .next (s.setAdcNext { s.adcNext with
    rspCnt := 0
    rspIdx := cut s.cfg.IW (s.adc.rspIdx + 1) })

end Sys2Proof.Machine
end

