-- ==== Sys2Proof/Machine/Dispatch.lean ====
section
/-! DEFINITION. One arm per operation of the opcode table (R98): a direct call of its meaning. -/

namespace Sys2Proof.Machine

def exec (i : Instr) (s : State) : Host.Outcome State Fault Refusal :=
  match i with
  | .decIdle => Sys2Proof.Machine.execDecIdle s
  | .decWait1 => Sys2Proof.Machine.execDecWait1 s
  | .decWait2 => Sys2Proof.Machine.execDecWait2 s
  | .decNullbit => Sys2Proof.Machine.execDecNullbit s
  | .decBit9 => Sys2Proof.Machine.execDecBit9 s
  | .decBit8 => Sys2Proof.Machine.execDecBit8 s
  | .decBit7 => Sys2Proof.Machine.execDecBit7 s
  | .decBit6 => Sys2Proof.Machine.execDecBit6 s
  | .decBit5 => Sys2Proof.Machine.execDecBit5 s
  | .decBit4 => Sys2Proof.Machine.execDecBit4 s
  | .decBit3 => Sys2Proof.Machine.execDecBit3 s
  | .decBit2 => Sys2Proof.Machine.execDecBit2 s
  | .decBit1 => Sys2Proof.Machine.execDecBit1 s
  | .decBit0 => Sys2Proof.Machine.execDecBit0 s
  | .decBitN k => Sys2Proof.Machine.execDecBitN k s
  | .unusedDsel14 => Sys2Proof.Machine.execUnusedDsel14 s
  | .unusedDsel15 => Sys2Proof.Machine.execUnusedDsel15 s
  | .rspIdleHold => Sys2Proof.Machine.execRspIdleHold s
  | .rspIdleGo => Sys2Proof.Machine.execRspIdleGo s
  | .rspWait1 => Sys2Proof.Machine.execRspWait1 s
  | .rspWait2 => Sys2Proof.Machine.execRspWait2 s
  | .rspNullbit => Sys2Proof.Machine.execRspNullbit s
  | .rspBit9 => Sys2Proof.Machine.execRspBit9 s
  | .rspBit8 => Sys2Proof.Machine.execRspBit8 s
  | .rspBit7 => Sys2Proof.Machine.execRspBit7 s
  | .rspBit6 => Sys2Proof.Machine.execRspBit6 s
  | .rspBit5 => Sys2Proof.Machine.execRspBit5 s
  | .rspBit4 => Sys2Proof.Machine.execRspBit4 s
  | .rspBit3 => Sys2Proof.Machine.execRspBit3 s
  | .rspBit2 => Sys2Proof.Machine.execRspBit2 s
  | .rspBit1 => Sys2Proof.Machine.execRspBit1 s
  | .rspBit0 => Sys2Proof.Machine.execRspBit0 s
  | .rspBitN k => Sys2Proof.Machine.execRspBitN k s
  | .rspAbort => Sys2Proof.Machine.execRspAbort s
  | .unusedRsel14 => Sys2Proof.Machine.execUnusedRsel14 s
  | .unusedRsel15 => Sys2Proof.Machine.execUnusedRsel15 s
  | .rspCount => Sys2Proof.Machine.execRspCount s
  | .rspWrap => Sys2Proof.Machine.execRspWrap s
  | .accHold => Sys2Proof.Machine.execAccHold s
  | .accAdd => Sys2Proof.Machine.execAccAdd s
  | .accEmit => Sys2Proof.Machine.execAccEmit s
  | .qNowrite => Sys2Proof.Machine.execQNowrite s
  | .qWriteAdv => Sys2Proof.Machine.execQWriteAdv s
  | .qWriteWrap => Sys2Proof.Machine.execQWriteWrap s
  | .qRead => Sys2Proof.Machine.execQRead s
  | .hRdwait => Sys2Proof.Machine.execHRdwait s
  | .hRdadv => Sys2Proof.Machine.execHRdadv s
  | .genInit => Sys2Proof.Machine.execGenInit s
  | .genSame => Sys2Proof.Machine.execGenSame s
  | .genNewsym => Sys2Proof.Machine.execGenNewsym s
  | .genFlip => Sys2Proof.Machine.execGenFlip s
  | .genEmit => Sys2Proof.Machine.execGenEmit s
  | .reset => Sys2Proof.Machine.execReset s

end Sys2Proof.Machine
end

