-- ==== Sys2Proof/Machine/Flags.lean ====
section
/-!
DEFINITION. The guard bits and the selector words of R90 to R97. The status flags `dec_valid`,
`acc_valid` and `dec_cs` are registers their components write (R49); no operation writes a flag as a
side effect of arithmetic.
-/

namespace Sys2Proof.Machine

/-- `at_c` (R93). -/
def State.atC (s : State) : Bool :=
  decide (s.adc.rspCnt = s.cfg.C)

/-- `at_lim` (R94). -/
def State.atLim (s : State) : Bool :=
  decide (s.sys.accCnt = s.cfg.LIM)

/-- `wr_last` (R95). -/
def State.wrLast (s : State) : Bool :=
  decide (s.sys.qWr = s.cfg.K - 1)

/-- `rd_due` (R96). -/
def State.rdDue (s : State) : Bool :=
  decide (s.sys.hRdcnt = s.cfg.rdPeriod - 1)

/-- `new_sym` (R97). -/
def State.newSym (s : State) : Bool :=
  decide (genSym s.cfg s.genT ≠ s.gen.lastSym)

/-- `flip` (R97). A symbol past the sequence has no bit to differ from; its index is then refused as CE4
(R120; log entry 28). -/
def State.flip (s : State) : Bool :=
  s.newSym &&
    match s.cfg.bitOf (genSym s.cfg s.genT) with
    | some b => b != s.gen.curBit
    | none => false

/-- The selector word a component reads in this state (R91 to R97). A state code is taken in the SW bits
of its field. -/
def selector (f : Format) (s : State) : Nat :=
  match f with
  | .dsel => bitNat s.rst * 2 ^ s.cfg.SW + s.sys.decState % 2 ^ s.cfg.SW
  | .rsel =>
    bitNat s.rst * 2 ^ (s.cfg.SW + 1) + bitNat s.cs * 2 ^ s.cfg.SW + s.adc.rspState % 2 ^ s.cfg.SW
  | .csel => bitNat s.rst * 2 + bitNat s.atC
  | .asel => bitNat s.rst * 4 + bitNat s.sys.decValid * 2 + bitNat s.atLim
  | .qsel => bitNat s.rst * 4 + bitNat s.sys.accValid * 2 + bitNat s.wrLast
  | .hsel => bitNat s.rst * 2 + bitNat s.rdDue
  | .gsel => bitNat s.newSym * 2 + bitNat s.flip
  | .fixed _ => 0

end Sys2Proof.Machine
end

