-- ==== Sys2Proof/Machine/Tick.lean ====
section
/-!
DEFINITION. One tick (R230): a `sys` edge, then an `adc` edge, each component performing the one operation
its selector word selects (R98), all of an edge on the same pre-edge registers, and one commit per edge.
-/

namespace Sys2Proof.Machine

/-- A selector word that selects no operation: an unused state code is MF2 (R104, R256); the others cannot
occur (R97). -/
def rejected (e : DecodeError) : Result :=
  match e with
  | .unusedState comp code => .fault (.mf2UnreachableState comp code)
  | .impossibleGsel => .refused (.noSelection .gsel)
  | .tooWide f _ => .refused (.noSelection f)

/-- A component performs the operation its selector word selects (R98). -/
def perform (f : Format) (s : State) : Result :=
  match decode s.cfg f (selector f s) with
  | .ok i => exec i s
  | .error e => rejected e

/-- The `sys` edge (R230 steps 1 and 2): the Decoder, the Accumulator, the Queue's two sides and the read
cursor, then the commit. -/
def sysEdge (s : State) : Result :=
  andThen (perform .dsel s) fun s1 =>
  andThen (perform .asel s1) fun s2 =>
  andThen (perform .qsel s2) fun s3 =>
  andThen (perform (.fixed .qRead) s3) fun s4 =>
  andThen (perform .hsel s4) fun s5 =>
  .next s5.commitSys

/-- The `adc` edge (R230 steps 3 and 4): the Responder FSM and its counter, then the commit. The wire cs is
read from the `sys` registers just committed. -/
def adcEdge (s : State) : Result :=
  andThen (perform .rsel s) fun s1 =>
  andThen (perform .csel s1) fun s2 =>
  .next s2.commitAdc

/-- `Tick(S, rst)` (R230). -/
def tick (s : State) : Result :=
  andThen (sysEdge s.beginTick) adcEdge

end Sys2Proof.Machine
end

