-- ==== Sys2Proof/Machine/Construct.lean ====
section
/-!
DEFINITION. Construction (60_exceptions.md, R251 to R253; R274): the checks in the order of R252 and the
Generator's procedure (R117), one of its operations a step. A configuration that fails a check is refused
with its construction error; none is ever run in part.
-/

namespace Sys2Proof

open Sys2Proof.Machine

/-- BITS has another length than B; nothing to check where the table is given instead (R251, R252; log
entry 20). -/
def Proposal.badBits (p : Proposal) : Bool :=
  match p.source with
  | .bits b => decide ((b.length : Int) ≠ p.B)
  | .given _ => false

/-- The checks 1 to 3 of R252, in order, each with its error; a negative D, K, B or P, "any other value
outside the legal values" (R251), is checked between 1 and 2 (log entry 33). -/
def Proposal.paramChecks (p : Proposal) : List (Bool × Refusal) :=
  [ (decide (p.D = 0), .ce3ZeroCount .D),
    (decide (p.K = 0), .ce3ZeroCount .K),
    (decide (p.B = 0), .ce3ZeroCount .B),
    (decide (p.P = 0), .ce3ZeroCount .P),
    (decide (p.D < 0), .ce4BadConfig (.param .D)),
    (decide (p.K < 0), .ce4BadConfig (.param .K)),
    (decide (p.B < 0), .ce4BadConfig (.param .B)),
    (decide (p.P < 0), .ce4BadConfig (.param .P)),
    (decide (p.N < 2), .ce4BadConfig (.param .N)),
    (decide (p.C < 1), .ce4BadConfig (.param .C)),
    (decide (p.F < 1), .ce4BadConfig (.param .F)),
    (decide (p.R < 1), .ce4BadConfig (.param .R)),
    (p.f1.nonpositive, .ce4BadConfig (.param .f1)),
    (p.f0.nonpositive, .ce4BadConfig (.param .f0)),
    (decide (p.rdPeriod < 1), .ce4BadConfig (.param .rdPeriod)),
    (p.badBits, .ce4BadConfig (.param .lenBits)),
    (decide (p.T < 1), .ce4BadConfig (.param .T)),
    (decide ((p.toConfig.W : Int) < p.T), .ce2WidthTooSmall (.truncWidth p.T.toNat p.toConfig.W)) ]

namespace Machine

/-- The error of the first check that fails (R252). -/
def firstError : List (Bool × Refusal) → Option Refusal
  | [] => none
  | (bad, r) :: rest => if bad then some r else firstError rest

/-- The first bit of a given table that is neither 0 nor 1, from index t on (R251, CE4). -/
def tableBitError : Nat → List (Int × Int) → Option Refusal
  | _, [] => none
  | t, (b, _) :: rest =>
    if b = 0 ∨ b = 1 then tableBitError (t + 1) rest else some (.ce4BadConfig (.tableBit t b))

/-- The first value of a given table outside N signed bits, from index t on (R251, CE2). -/
def tableValueError (c : Config) : Nat → List (Int × Int) → Option Refusal
  | _, [] => none
  | t, (_, q) :: rest =>
    if fitsSigned c.N q then tableValueError c (t + 1) rest
    else some (.ce2WidthTooSmall (.tableValue t q))

/-- Check 4 of R252 on a given table: its length, then its bits, then its values (log entry 20). -/
def tableError (c : Config) (table : List (Int × Int)) : Option Refusal :=
  if table.length ≠ c.L then some (.ce4BadConfig (.tableLength table.length))
  else
    match tableBitError 0 table with
    | some r => some r
    | none => tableValueError c 0 table

/-- A given table as the Responder reads it. -/
def givenTable (table : List (Int × Int)) : List (Bool × Int) :=
  table.map fun e => (decide (e.1 = 1), e.2)

/-- The first listed power-on value outside T signed bits, from slot i on (check 5 of R252). -/
def queueInitError (c : Config) : Nat → List Int → Option Refusal
  | _, [] => none
  | i, v :: rest =>
    if fitsSigned c.T v then queueInitError c (i + 1) rest
    else some (.ce4BadConfig (.queueInit i v))

/-- The wires of R232 and the two output ports. -/
def allWires : List Wire :=
  [.sclk, .cs, .din, .accInValid, .accInData, .qInValid, .qInData, .qReadIndex, .qOut, .dataValid]

/-- The wires a wire reads: none of R232 "reads another wire", and q_out reads the queue at its read
index (R213). -/
def wireReads : Wire → List Wire
  | .qOut => [.qReadIndex]
  | .sclk | .cs | .din | .accInValid | .accInData | .qInValid | .qInData | .qReadIndex => []
  | .dataValid => []

/-- Wire a reads wire b through at most n wires. -/
def wireReaches (reads : Wire → List Wire) : Nat → Wire → Wire → Bool
  | 0, _, _ => false
  | n + 1, a, b => (reads a).any fun w => decide (w = b) || wireReaches reads n w b

/-- A wire on a cycle of the wire graph (check 6 of R252, CE1). -/
def wireCycle (reads : Wire → List Wire) : Option Wire :=
  allWires.find? fun w => wireReaches reads allWires.length w w

/-- The construction step before the table: checks 1 to 3, and check 4 on a given table (R252). A proposal
that passes is the block's configuration from here on. -/
def constructStep (p : Proposal) (s : State) : Result :=
  match firstError p.paramChecks with
  | some r => .refused r
  | none =>
    match p.source with
    | .bits _ => .next ((s.setCfg p.toConfig).setStage .genInit)
    | .given table =>
      match tableError p.toConfig table with
      | some r => .refused r
      | none => .next (((s.setCfg p.toConfig).setTable (givenTable table)).setStage .finish)

/-- The Generator goes to the next index, or construction goes on after the last one (R117). -/
def genAdvance (s : State) : State :=
  (s.setGenT (s.genT + 1)).setStage (if s.genT + 1 < s.cfg.L then .genSelect else .finish)

/-- S_0 of the configuration and the table (R252 check 7, R270); the environment's inputs are still to
come. -/
def State.built (s : State) : State :=
  { State.powerOn s.cfg s.gtab with rstIn := s.rstIn }

/-- The construction step after the table: checks 5 and 6, then S_0 (R252). -/
def finishStep (s : State) : Result :=
  match queueInitError s.cfg 0 (s.cfg.qmemInit.take s.cfg.K) with
  | some r => .refused r
  | none =>
    match wireCycle wireReads with
    | some w => .refused (.ce1CombCycle w)
    | none => .next s.built

/-- One step of the block: one tick of a constructed block, before that one step of its construction. -/
def advance (s : State) : Result :=
  match s.stage with
  | .construct p => constructStep p s
  | .genInit => andThen (perform (.fixed .genInit) s) fun s' => .next (s'.setStage .genSelect)
  | .genSelect => andThen (perform .gsel s) fun s' => .next (s'.setStage .genEmit)
  | .genEmit => andThen (perform (.fixed .genEmit) s) fun s' => .next (genAdvance s')
  | .finish => finishStep s
  | .run => tick s

end Machine

end Sys2Proof
end

