-- ==== Sys2Proof/Machine/Fetch.lean ====
section
/-!
DEFINITION. Placing a selector word so that the next step performs what it selects (log entry 18). The
block fetches nothing (R83): a selector word is read off the registers and the inputs (R90 to R97), so
placing a word sets exactly the registers, the input and the stage its bits come from. Also the
stimulus lines of R107.
-/

namespace Sys2Proof.Machine

/-- A count that does, or does not, equal its limit. -/
def countAt (hit : Bool) (limit : Nat) : Nat :=
  if hit then limit else if limit = 0 then 1 else 0

/-- The next step is a tick with this `rst` input. -/
def State.withTick (s : State) (rst : Bool) : State :=
  { s with stage := .run, rstIn := rst :: s.rstIn }

/-- The next step performs what the word w selects in the format f. RSEL's cs bit is `dec_cs` after the
`sys` edge (R92), so the Decoder is placed where it leaves `dec_cs` as it is. GSEL's bits come from the
bit sequence too, which is set to ones. -/
def State.place (s : State) (f : Format) (w : Nat) : State :=
  match f with
  | .dsel =>
    { s.withTick (decide (w / 2 ^ s.cfg.SW % 2 = 1)) with
      sys := { s.sys with decState := w % 2 ^ s.cfg.SW } }
  | .rsel =>
    { s.withTick (decide (w / 2 ^ (s.cfg.SW + 1) % 2 = 1)) with
      sys := { s.sys with decState := wait1Code, decCs := decide (w / 2 ^ s.cfg.SW % 2 = 1) }
      adc := { s.adc with rspState := w % 2 ^ s.cfg.SW } }
  | .csel =>
    { s.withTick (decide (w / 2 % 2 = 1)) with
      adc := { s.adc with rspCnt := countAt (decide (w % 2 = 1)) s.cfg.C } }
  | .asel =>
    { s.withTick (decide (w / 4 % 2 = 1)) with
      sys := { s.sys with
        decValid := decide (w / 2 % 2 = 1)
        accCnt := countAt (decide (w % 2 = 1)) s.cfg.LIM } }
  | .qsel =>
    { s.withTick (decide (w / 4 % 2 = 1)) with
      sys := { s.sys with
        accValid := decide (w / 2 % 2 = 1)
        qWr := countAt (decide (w % 2 = 1)) (s.cfg.K - 1) } }
  | .hsel =>
    { s.withTick (decide (w / 2 % 2 = 1)) with
      sys := { s.sys with hRdcnt := countAt (decide (w % 2 = 1)) (s.cfg.rdPeriod - 1) } }
  | .gsel =>
    { s with
      stage := .genSelect
      cfg := { s.cfg with source := .bits (List.replicate s.cfg.B true) }
      gen := { s.gen with
        lastSym := if w / 2 % 2 = 1 then genSym s.cfg s.genT + 1 else genSym s.cfg s.genT
        curBit := decide (w % 2 = 0) } }
  | .fixed .qRead => s.withTick false
  | .fixed .genInit => { s with stage := .genInit }
  | .fixed .genEmit => { s with stage := .genEmit }

/-- The lines of a stimulus program that are ticks (R107); `config` and `table` are the configuration,
and `expect` observes. -/
inductive Stimulus
  | reset
  | run (n : Nat)
  deriving DecidableEq, Repr

/-- The `rst` inputs of a stimulus program: `reset` is one tick with rst = 1, `run n` is n ticks with
rst = 0 (R107). -/
def stimulusInputs : List Stimulus → List Bool
  | [] => []
  | .reset :: rest => true :: stimulusInputs rest
  | .run n :: rest => List.replicate n false ++ stimulusInputs rest

/-- The environment gives the coming ticks these `rst` inputs (R238). -/
def State.withInputs (s : State) (l : List Bool) : State :=
  { s with rstIn := l }

/-- The encoding of a tick (R107, 95_test_vectors.md section 9): its words in the order DSEL, RSEL, CSEL,
ASEL, QSEL, HSEL, RSEL's read after the `sys` edge; none where that edge stops. -/
def tickWords (s : State) : Option (List Nat) :=
  match sysEdge s.beginTick with
  | .next s' =>
    some [selector .dsel s.beginTick, selector .rsel s', selector .csel s',
      selector .asel s.beginTick, selector .qsel s.beginTick, selector .hsel s.beginTick]
  | .fault _ => none
  | .refused _ => none

end Sys2Proof.Machine
end

