-- ==== Sys2Proof/Machine/Step.lean ====
section
/-! DEFINITION. The step of the block and the placing of a table word; both only call the operations of
Construct.lean and Fetch.lean. -/

namespace Sys2Proof.Machine

/-- One step: one tick of the constructed block (R230), before that one step of its construction (R252). -/
def step (s : State) : Host.Outcome State Fault Refusal :=
  advance s

/-- s with the table word w placed where the next step reads it (log entry 18). -/
def State.withFetchWord (s : State) (nbits w : Nat) : State :=
  s.place (tableFormat nbits w).1 (tableFormat nbits w).2

end Sys2Proof.Machine
end

