-- ==== Sys2Proof/Safety.lean ====
section
/-!
DEFINITION. What counts as a well-formed state and a safe run, in the words the statements use: the
legal configurations (R252, R253), the ranges of every register (R32 to R48), the lock-step of the two
FSMs (R167, R169), the capture of a transfer (R168), runs of steps (R237), what an operation leaves alone,
and where a block is so many ticks after a reset (R273, R288).
-/

namespace Sys2Proof

open Sys2Proof.Machine

/-- The checks 1 to 3 of R252 pass. -/
abbrev Proposal.Accepted (p : Proposal) : Prop :=
  firstError p.paramChecks = none

/-- A configuration that passes the checks 1 to 3 of R252. -/
abbrev Config.Legal (c : Config) : Prop :=
  c.proposal.Accepted

/-- The configuration as R252's checks leave it, check by check (R7, R251), written out apart from the
checks' code. -/
structure Config.InRange (c : Config) : Prop where
  sampleWidth : 2 ≤ c.N
  cycles : 1 ≤ c.C
  decimation : 1 ≤ c.D
  capacity : 1 ≤ c.K
  symbols : 1 ≤ c.B
  perBit : 1 ≤ c.P
  entryWidth : 1 ≤ c.T
  entryFits : c.T ≤ c.W
  clock : 1 ≤ c.F
  baud : 1 ≤ c.R
  toneOne : 0 < c.f1.value
  toneZero : 0 < c.f0.value
  readPeriod : 1 ≤ c.rdPeriod
  bitCount : ∀ b, c.source = .bits b → b.length = c.B

/-- No listed power-on value that is read lies outside T signed bits (R252 check 5). -/
def Config.QueueInitFits (c : Config) : Prop :=
  ∀ v ∈ c.qmemInit.take c.K, fitsSigned c.T v = true

/-- R252's order of the checks 1 to 3, each condition in the words of R251 and apart from the checks' code;
the place of a negative D, K, B or P is the model's (log entry 33). -/
def Proposal.reportOrder (p : Proposal) : List (Prop × Refusal) :=
  [ (p.D = 0, .ce3ZeroCount .D),
    (p.K = 0, .ce3ZeroCount .K),
    (p.B = 0, .ce3ZeroCount .B),
    (p.P = 0, .ce3ZeroCount .P),
    (p.D < 0, .ce4BadConfig (.param .D)),
    (p.K < 0, .ce4BadConfig (.param .K)),
    (p.B < 0, .ce4BadConfig (.param .B)),
    (p.P < 0, .ce4BadConfig (.param .P)),
    (p.N < 2, .ce4BadConfig (.param .N)),
    (p.C < 1, .ce4BadConfig (.param .C)),
    (p.F < 1, .ce4BadConfig (.param .F)),
    (p.R < 1, .ce4BadConfig (.param .R)),
    (p.f1.value ≤ 0, .ce4BadConfig (.param .f1)),
    (p.f0.value ≤ 0, .ce4BadConfig (.param .f0)),
    (p.rdPeriod < 1, .ce4BadConfig (.param .rdPeriod)),
    (∃ b, p.source = .bits b ∧ (b.length : Int) ≠ p.B, .ce4BadConfig (.param .lenBits)),
    (p.T < 1, .ce4BadConfig (.param .T)),
    ((p.toConfig.W : Int) < p.T, .ce2WidthTooSmall (.truncWidth p.toConfig.T p.toConfig.W)) ]

namespace Machine

/-- GTAB as R71 says: L entries, every sample a signed N-bit one. -/
abbrev TableWf (c : Config) (t : List (Bool × Int)) : Prop :=
  t.length = c.L ∧ t.all (fun e => fitsSigned c.N e.2) = true

/-- Every `sys` register inside its range (R32 to R43). -/
abbrev SysRegs.Wf (c : Config) (r : SysRegs) : Prop :=
  r.decState ≤ c.N + 3 ∧ fitsSigned c.N r.decSample = true ∧ r.accCnt ≤ c.LIM ∧
    fitsSigned c.W r.accSum = true ∧ fitsSigned c.W r.accOut = true ∧ r.qWr < c.K ∧
    Memory.wf c r.qmem = true ∧ r.hRd < 2 ^ c.QW ∧ r.hRdcnt < c.rdPeriod

/-- Every `adc` register inside its range (R44 to R47). -/
abbrev AdcRegs.Wf (c : Config) (r : AdcRegs) : Prop :=
  r.rspState ≤ c.N + 3 ∧ r.rspCnt ≤ c.C ∧ r.rspIdx < 2 ^ c.IW ∧ r.rspHoldSample < 2 ^ c.N

/-- A state of a constructed block between two ticks: a legal configuration, its table, every register in
its range, nothing pending. -/
abbrev State.Wf (s : State) : Prop :=
  s.cfg.Legal ∧ s.stage = .run ∧ TableWf s.cfg s.gtab ∧ SysRegs.Wf s.cfg s.sys ∧
    AdcRegs.Wf s.cfg s.adc ∧ s.sysNext = s.sys ∧ s.adcNext = s.adc

/-- The `rst` input of the next tick. -/
def State.nextRst (s : State) : Bool :=
  s.rstIn.headD false

/-- The two FSMs are in the same state, the device is deselected exactly in IDLE, and the data-valid pulse
is seen in IDLE only (R166, R167, R169). -/
abbrev State.Lockstep (s : State) : Prop :=
  s.sys.decState = s.adc.rspState ∧ (s.sys.decCs = true ↔ s.sys.decState = idleCode) ∧
    (s.sys.decValid = true → s.sys.decState = idleCode)

/-- Every bit of the transfer already captured is the held sample's, and with the data-valid pulse the
whole sample is the held one (R99, R167, R168). -/
def State.Captured (s : State) : Prop :=
  (∀ i, i < s.cfg.N → bitCode s.cfg i < s.sys.decState →
    (pat s.cfg.N s.sys.decSample).testBit i = s.adc.rspHoldSample.testBit i) ∧
  (s.sys.decValid = true → s.sys.decSample = sext s.cfg.N s.adc.rspHoldSample)

/-- k steps (R237). -/
def stepsFrom (k : Nat) (s : State) : Result :=
  Host.Core.run Sys2Proof.core k s

/-! ### What an operation leaves alone -/

/-- t differs from s in pending `sys` values at most. -/
def OnlySysNext (s t : State) : Prop :=
  t = { s with sysNext := t.sysNext }

/-- t differs from s in pending `adc` values at most. -/
def OnlyAdcNext (s t : State) : Prop :=
  t = { s with adcNext := t.adcNext }

/-- The Decoder's registers are alike (R32 to R35). -/
def SameDec (r q : SysRegs) : Prop :=
  q.decState = r.decState ∧ q.decCs = r.decCs ∧ q.decValid = r.decValid ∧ q.decSample = r.decSample

/-- The Accumulator's registers are alike (R36 to R39). -/
def SameAcc (r q : SysRegs) : Prop :=
  q.accCnt = r.accCnt ∧ q.accSum = r.accSum ∧ q.accOut = r.accOut ∧ q.accValid = r.accValid

/-- Every slot of the queue reads alike (R41). -/
def SameQueue (r q : SysRegs) : Prop :=
  ∀ i, Memory.read q.qmem i = Memory.read r.qmem i

/-- The read cursor's registers are alike (R42, R43). -/
def SameCursor (r q : SysRegs) : Prop :=
  q.hRd = r.hRd ∧ q.hRdcnt = r.hRdcnt

/-- The Responder FSM's registers are alike (R44, R47, R48). -/
def SameRspFsm (r q : AdcRegs) : Prop :=
  q.rspState = r.rspState ∧ q.rspHoldSample = r.rspHoldSample ∧ q.rspHoldBit = r.rspHoldBit

/-- The Responder counter's registers are alike (R45, R46). -/
def SameRspCount (r q : AdcRegs) : Prop :=
  q.rspCnt = r.rspCnt ∧ q.rspIdx = r.rspIdx

/-! ### Sequences of accepted inputs -/

/-- The Accumulator accepts the sample x: its operation of a tick with `in_valid` = 1 and `in_data` = x,
committed (R190 to R192). -/
def acceptSample (s : State) (x : Int) : Result :=
  let s0 := { s with rst := false, sys := { s.sys with decValid := true, decSample := x } }
  andThen (perform .asel { s0 with sysNext := s0.sys }) fun t => .next t.commitSys

/-- The Accumulator accepts the samples of a list, one after another. -/
def acceptAll : List Int → State → Result
  | [], s => .next s
  | x :: rest, s => andThen (acceptSample s x) (acceptAll rest)

/-- The Queue accepts the value v: its write side's operation of a tick with `in_valid` = 1 and `in_data`
= v, committed (R210, R211). -/
def acceptWrite (s : State) (v : Int) : Result :=
  let s0 := { s with rst := false, sys := { s.sys with accValid := true, accOut := v } }
  andThen (perform .qsel { s0 with sysNext := s0.sys }) fun t => .next t.commitSys

/-- The Queue accepts the values of a list, one after another. -/
def acceptWrites : List Int → State → Result
  | [], s => .next s
  | v :: rest, s => andThen (acceptWrite s v) (acceptWrites rest)

/-- `idx(j)`: the table index transfer j loads (R143). -/
def loadIndex (c : Config) (j : Nat) : Nat :=
  (1 + j * (c.N + 4)) / (c.C + 1)

/-- The sample of table entry i, 0 past the table. -/
def tableSample (t : List (Bool × Int)) (i : Nat) : Int :=
  match tableRead t i with
  | some (_, q) => q
  | none => 0

/-! ### Where a block is k ticks after a reset (R143, R167, R168, R195, R273, R288) -/

/-- A constructed block with a legal configuration and its table, and a queue of K slots with a cursor on
one of them; nothing is said of the other registers. -/
def State.Running (s : State) : Prop :=
  s.cfg.Legal ∧ s.stage = .run ∧ TableWf s.cfg s.gtab ∧ s.sys.qmem.length = s.cfg.K ∧
    s.sys.qWr < s.cfg.K

/-- A reset state: S_0 or the state after a tick with rst = 1 (R270, R272, R273), whatever the queue's slots
hold. -/
def State.AtReset (s : State) : Prop :=
  s.Running ∧ s.sys = SysRegs.reset s.sys.qmem ∧ s.adc = AdcRegs.reset

/-- None of the next k ticks has rst = 1. -/
def State.NoResetFor (k : Nat) (s : State) : Prop :=
  ∀ b ∈ s.rstIn.take k, b = false

/-- The state k ticks after a reset, in which every load has found its entry: the FSMs, the device-select,
the Responder's counter and index and the read cursor (R143, R167, R169, R236, R288). -/
def State.OnSchedule (k : Nat) (s : State) : Prop :=
  s.Running ∧ s.sys.decState = k % (s.cfg.N + 4) ∧ s.adc.rspState = k % (s.cfg.N + 4) ∧
    (s.sys.decCs = true ↔ k % (s.cfg.N + 4) = 0) ∧ s.adc.rspCnt = k % (s.cfg.C + 1) ∧
    s.adc.rspIdx = k / (s.cfg.C + 1) ∧ s.sys.hRdcnt = k % s.cfg.rdPeriod ∧
    s.sys.hRd = k / s.cfg.rdPeriod % 2 ^ s.cfg.QW ∧
    ∀ j, 2 + j * (s.cfg.N + 4) ≤ k → loadIndex s.cfg j < s.cfg.L

/-- And: the pulse, the sample held since the last load, and what is captured of it (R131, R166, R168). -/
def State.OnTransfers (k : Nat) (s : State) : Prop :=
  s.OnSchedule k ∧ s.Captured ∧ (s.sys.decValid = true ↔ ∃ j, k = (j + 1) * (s.cfg.N + 4)) ∧
    ∀ j, 2 + j * (s.cfg.N + 4) ≤ k → k < 2 + (j + 1) * (s.cfg.N + 4) →
      s.adc.rspHoldSample = pat s.cfg.N (tableSample s.gtab (loadIndex s.cfg j))

/-- The samples accepted in k ticks (R195: sample s in tick (s + 1)(N + 4) + 1). -/
def acceptedBy (c : Config) (k : Nat) : Nat :=
  (k - 1) / (c.N + 4)

/-- The wrapped sum of the samples that n transfers from transfer j on carry. -/
def transferSum (s : State) (j n : Nat) : Int :=
  wrap s.cfg.W ((List.range n).map fun i => tableSample s.gtab (loadIndex s.cfg (j + i))).sum

/-- And: the Accumulator, G = LIM + 1 samples a sum (R190, R194, R195). -/
def State.OnSums (k : Nat) (s : State) : Prop :=
  s.OnTransfers k ∧ s.sys.accCnt = acceptedBy s.cfg k % (s.cfg.LIM + 1) ∧
    s.sys.accSum = transferSum s (acceptedBy s.cfg k - acceptedBy s.cfg k % (s.cfg.LIM + 1))
      (acceptedBy s.cfg k % (s.cfg.LIM + 1)) ∧
    (s.sys.accValid = true ↔ ∃ m, k = (m + 1) * (s.cfg.LIM + 1) * (s.cfg.N + 4) + 1) ∧
    ∀ m, (m + 1) * (s.cfg.LIM + 1) * (s.cfg.N + 4) + 1 ≤ k →
      k < (m + 2) * (s.cfg.LIM + 1) * (s.cfg.N + 4) + 1 →
      s.sys.accOut = transferSum s (m * (s.cfg.LIM + 1)) (s.cfg.LIM + 1)

end Machine

end Sys2Proof
end

