-- ==== Sys2Proof/Certificates/Slice0/Obligations.lean ====
section
/-!
DEFINITION. The statements for the provers, each from the numbered rules of spec/ it cites. Nothing here
is proved. A statement about a tick says what the committed registers are after it; a statement about an
operation says the pending values it sets (R13). The free values of Config.lean are arbitrary in all of
them.
-/

open Sys2Proof Sys2Proof.Machine

/-! ### Encodings -/

/-- Selector words written out from R91 to R97 and opcode_table.json, at the scenario width N = 10. -/
def Obligations.SelectorWordsDecodeAsTabled : Prop :=
  decode Config.scenario .dsel 0b00000 = .ok .decIdle ∧
  decode Config.scenario .dsel 0b00011 = .ok .decNullbit ∧
  decode Config.scenario .dsel 0b00100 = .ok .decBit9 ∧
  decode Config.scenario .dsel 0b01101 = .ok .decBit0 ∧
  decode Config.scenario .dsel 0b01110 = .ok .unusedDsel14 ∧
  decode Config.scenario .rsel 0b010000 = .ok .rspIdleHold ∧
  decode Config.scenario .rsel 0b000000 = .ok .rspIdleGo ∧
  decode Config.scenario .rsel 0b011101 = .ok .rspBit0 ∧
  decode Config.scenario .csel 0b01 = .ok .rspWrap ∧
  decode Config.scenario .asel 0b001 = .ok .accHold ∧
  decode Config.scenario .asel 0b011 = .ok .accEmit ∧
  decode Config.scenario .qsel 0b010 = .ok .qWriteAdv ∧
  decode Config.scenario .hsel 0b00 = .ok .hRdwait ∧
  decode Config.scenario .gsel 0b11 = .ok .genFlip ∧
  decode Config.scenario .gsel 0b01 = .error .impossibleGsel ∧
  decode Config.scenario .asel 0b101 = .ok .reset

/-- For every width and option: decoding the encoding of an operation that exists gives it back. -/
def Obligations.DecodeOfEncodeIsTheOperation : Prop :=
  ∀ (c : Config) (i : Instr), i.wf c = true → decode c i.format (encode c i) = .ok i

/-- R90: with the `rst` bit set the component performs RESET, whatever the other bits are. The bit is the
`rst` input of the tick. -/
def Obligations.ResetBitSelectsReset : Prop :=
  ∀ f ∈ [Format.dsel, .rsel, .csel, .asel, .qsel, .hsel],
    (∀ (c : Config) (w : Nat), 2 ^ (f.width c - 1) ≤ w → w < 2 ^ f.width c →
      decode c f w = .ok .reset) ∧
    (∀ s : State, s.rst = true → perform f s = exec .reset s)

/-- R91, R98, DSEL: which operation the Decoder performs for every state code of its width. -/
def Obligations.DecoderStateSelectsOperation : Prop :=
  ∀ s : State, s.rst = false → s.sys.decState < 2 ^ s.cfg.SW → 2 ≤ s.cfg.N →
    (s.sys.decState = 0 → perform .dsel s = exec .decIdle s) ∧
    (s.sys.decState = 1 → perform .dsel s = exec .decWait1 s) ∧
    (s.sys.decState = 2 → perform .dsel s = exec .decWait2 s) ∧
    (s.sys.decState = 3 → perform .dsel s = exec .decNullbit s) ∧
    (∀ i, 1 ≤ i → i < s.cfg.N → s.sys.decState = s.cfg.N + 3 - i →
      perform .dsel s = exec (decBitInstr i) s) ∧
    (s.sys.decState = s.cfg.N + 3 → perform .dsel s = exec .decBit0 s) ∧
    (s.cfg.N + 4 ≤ s.sys.decState →
      perform .dsel s = .fault (.mf2UnreachableState .decoder s.sys.decState))

/-- R92, R98, R106, R142, RSEL: which operation the Responder FSM performs for every state code of its
width, with cs and the option RSP_ABORT. -/
def Obligations.ResponderStateSelectsOperation : Prop :=
  ∀ s : State, s.rst = false → s.adc.rspState < 2 ^ s.cfg.SW → 2 ≤ s.cfg.N →
    (s.adc.rspState = 0 → s.cs = true → perform .rsel s = exec .rspIdleHold s) ∧
    (s.adc.rspState = 0 → s.cs = false → perform .rsel s = exec .rspIdleGo s) ∧
    (1 ≤ s.adc.rspState → s.adc.rspState ≤ s.cfg.N + 3 → s.cfg.rspAbort = true → s.cs = true →
      perform .rsel s = exec .rspAbort s) ∧
    (s.cfg.N + 4 ≤ s.adc.rspState →
      perform .rsel s = .fault (.mf2UnreachableState .responder s.adc.rspState)) ∧
    ((s.cfg.rspAbort && s.cs) = false →
      (s.adc.rspState = 1 → perform .rsel s = exec .rspWait1 s) ∧
      (s.adc.rspState = 2 → perform .rsel s = exec .rspWait2 s) ∧
      (s.adc.rspState = 3 → perform .rsel s = exec .rspNullbit s) ∧
      (∀ i, 1 ≤ i → i < s.cfg.N → s.adc.rspState = s.cfg.N + 3 - i →
        perform .rsel s = exec (rspBitInstr i) s) ∧
      (s.adc.rspState = s.cfg.N + 3 → perform .rsel s = exec .rspBit0 s))

/-- R144: without the option the Responder reads cs in IDLE only: another value of `dec_cs` leaves what it
does unchanged in any other state. -/
def Obligations.DeviceSelectReadOnlyInIdle : Prop :=
  ∀ (s : State) (b : Bool), s.cfg.rspAbort = false → s.adc.rspState ≠ idleCode →
    s.adc.rspState < 2 ^ s.cfg.SW →
    (∀ t, perform .rsel s = .next t →
      ∃ t', perform .rsel { s with sys := { s.sys with decCs := b } } = .next t' ∧
        t'.adcNext = t.adcNext) ∧
    (∀ r, perform .rsel s = .fault r →
      perform .rsel { s with sys := { s.sys with decCs := b } } = .fault r)

/-! ### A step performs what the selector words select -/

/-- A selector word that decodes to an operation makes the component perform it, and a step of a
constructed block is the `sys` edge, then the `adc` edge, of the tick it begins (R98, R230). Before
construction ends, a step is the selected operation of the Generator and the move to the next stage. -/
def Obligations.StepRunsTheSelectedOperation : Prop :=
  (∀ (f : Format) (s : State) (i : Instr), decode s.cfg f (selector f s) = .ok i →
    perform f s = exec i s) ∧
  (∀ s : State, s.stage = .run → step s = andThen (sysEdge s.beginTick) adcEdge) ∧
  (∀ (s : State) (i : Instr), s.stage = .genSelect → decode s.cfg .gsel (selector .gsel s) = .ok i →
    step s = andThen (exec i s) fun t => .next (t.setStage .genEmit)) ∧
  (∀ s : State, s.stage = .genInit →
    step s = andThen (exec .genInit s) fun t => .next (t.setStage .genSelect)) ∧
  (∀ s : State, s.stage = .genEmit →
    step s = andThen (exec .genEmit s) fun t => .next (genAdvance t))

/-- The `sys` edge of a tick is the four selected operations and the queue's read, all selected by the
pre-edge state, then one commit; the `adc` edge is the two selected operations, both selected by the state
it starts from, then one commit (R98, R230). -/
def Obligations.EdgesRunSelectedOperations : Prop :=
  (∀ (s : State) (d a q h : Instr),
    decode s.cfg .dsel (selector .dsel s) = .ok d →
    decode s.cfg .asel (selector .asel s) = .ok a →
    decode s.cfg .qsel (selector .qsel s) = .ok q →
    decode s.cfg .hsel (selector .hsel s) = .ok h →
    sysEdge s =
      andThen (exec d s) fun s1 => andThen (exec a s1) fun s2 => andThen (exec q s2) fun s3 =>
        andThen (exec .qRead s3) fun s4 => andThen (exec h s4) fun s5 => .next s5.commitSys) ∧
  (∀ (s : State) (r k : Instr),
    decode s.cfg .rsel (selector .rsel s) = .ok r →
    decode s.cfg .csel (selector .csel s) = .ok k →
    adcEdge s = andThen (exec r s) fun s1 => andThen (exec k s1) fun s2 => .next s2.commitAdc)

/-- R13, R79: within an edge the order of the components' operations does not matter, because each reads
pre-edge values only. -/
def Obligations.OperationsOfAnEdgeCommute : Prop :=
  ∀ (s si sj : State) (i j : Instr), i ≠ .reset → j ≠ .reset → i.format ≠ j.format →
    ((i.format ∈ [Format.dsel, .asel, .qsel, .hsel, .fixed .qRead] ∧
        j.format ∈ [Format.dsel, .asel, .qsel, .hsel, .fixed .qRead]) ∨
      (i.format ∈ [Format.rsel, .csel] ∧ j.format ∈ [Format.rsel, .csel])) →
    exec i s = .next si → exec j s = .next sj → exec j si = exec i sj

/-! ### The Decoder -/

/-- R160 to R163, R165 as operations: DEC.IDLE, DEC.WAIT1, DEC.WAIT2, DEC.NULLBIT and DEC.BIT0 complete in
every state, set exactly the pending values of their rules and leave everything else as it was. -/
def Obligations.DecoderLeadInAndBit0Complete : Prop :=
  ∀ s : State,
    exec .decIdle s = .next { s with sysNext :=
      { s.sysNext with decState := 1, decCs := false, decValid := false } } ∧
    exec .decWait1 s = .next { s with sysNext := { s.sysNext with decState := 2 } } ∧
    exec .decWait2 s = .next { s with sysNext := { s.sysNext with decState := 3 } } ∧
    exec .decNullbit s = .next { s with sysNext :=
      { s.sysNext with decState := s.cfg.N + 3 - (s.cfg.N - 1) } } ∧
    exec .decBit0 s = .next { s with sysNext :=
      { s.sysNext with decSample := captured s 0, decValid := true, decCs := true, decState := 0 } }

/-- R164, R106 as operations: DEC.BIT9 to DEC.BIT1, and DEC.BIT(i), complete wherever bit i exists; a row
for a bit the width does not have is refused by name (log entry 24). -/
def Obligations.DecoderBitStatesComplete : Prop :=
  ∀ s : State,
    (∀ p ∈ [(Instr.decBit9, 9), (.decBit8, 8), (.decBit7, 7), (.decBit6, 6), (.decBit5, 5),
        (.decBit4, 4), (.decBit3, 3), (.decBit2, 2), (.decBit1, 1)],
      (p.2 < s.cfg.N →
        exec p.1 s = .next { s with sysNext :=
          { s.sysNext with decSample := captured s p.2, decState := s.cfg.N + 4 - p.2 } }) ∧
      (s.cfg.N ≤ p.2 → exec p.1 s = .refused (.noSuchBit p.2))) ∧
    (∀ i, 1 ≤ i → i < s.cfg.N →
      exec (.decBitN i) s = .next { s with sysNext :=
        { s.sysNext with decSample := captured s i, decState := s.cfg.N + 4 - i } }) ∧
    (∀ i, i = 0 ∨ s.cfg.N ≤ i → exec (.decBitN i) s = .refused (.noSuchBit i))

/-- R99: the captured sample has `din` at bit i, its other bits are the old sample's, and it is a signed
N-bit value. -/
def Obligations.CaptureWritesOneBit : Prop :=
  ∀ (s : State) (i : Nat), i < s.cfg.N →
    fitsSigned s.cfg.N (captured s i) = true ∧
    ∀ j, j < s.cfg.N →
      (pat s.cfg.N (captured s i)).testBit j =
        if j = i then s.din else (pat s.cfg.N s.sys.decSample).testBit j

/-- R160: the tick in IDLE selects the device, ends the pulse and goes to WAIT1 without a guard; the
sample keeps its value. -/
def Obligations.DecoderIdleTick : Prop :=
  ∀ s t : State, s.Wf → s.nextRst = false → s.sys.decState = idleCode → step s = .next t →
    t.sys.decState = wait1Code ∧ t.sys.decCs = false ∧ t.sys.decValid = false ∧
      t.sys.decSample = s.sys.decSample

/-- R161, R162, R163: WAIT1, WAIT2, NULLBIT and then BIT(N-1); nothing else of the Decoder changes. -/
def Obligations.DecoderLeadInTick : Prop :=
  ∀ s t : State, s.Wf → s.nextRst = false → step s = .next t →
    (s.sys.decState = wait1Code → t.sys.decState = wait2Code) ∧
    (s.sys.decState = wait2Code → t.sys.decState = nullbitCode) ∧
    (s.sys.decState = nullbitCode → t.sys.decState = bitCode s.cfg (s.cfg.N - 1)) ∧
    (s.sys.decState = wait1Code ∨ s.sys.decState = wait2Code ∨ s.sys.decState = nullbitCode →
      t.sys.decCs = s.sys.decCs ∧ t.sys.decValid = s.sys.decValid ∧
        t.sys.decSample = s.sys.decSample)

/-- R164: the tick in BIT(i), i ≥ 1, writes bit i of the sample from `din` and no other bit, and goes to
BIT(i-1). -/
def Obligations.DecoderBitTick : Prop :=
  ∀ (s t : State) (i : Nat), s.Wf → s.nextRst = false → 1 ≤ i → i < s.cfg.N →
    s.sys.decState = bitCode s.cfg i → step s = .next t →
    t.sys.decState = bitCode s.cfg (i - 1) ∧ t.sys.decCs = s.sys.decCs ∧
      t.sys.decValid = s.sys.decValid ∧ fitsSigned s.cfg.N t.sys.decSample = true ∧
      ∀ j, j < s.cfg.N →
        (pat s.cfg.N t.sys.decSample).testBit j =
          if j = i then s.din else (pat s.cfg.N s.sys.decSample).testBit j

/-- R165: the tick in BIT(0) writes bit 0, raises the pulse, deselects the device and returns to IDLE. -/
def Obligations.DecoderBit0Tick : Prop :=
  ∀ s t : State, s.Wf → s.nextRst = false → s.sys.decState = bitCode s.cfg 0 → step s = .next t →
    t.sys.decState = idleCode ∧ t.sys.decCs = true ∧ t.sys.decValid = true ∧
      fitsSigned s.cfg.N t.sys.decSample = true ∧
      ∀ j, j < s.cfg.N →
        (pat s.cfg.N t.sys.decSample).testBit j =
          if j = 0 then s.din else (pat s.cfg.N s.sys.decSample).testBit j

/-! ### The Responder -/

/-- R136: the data line as a function of the Responder's registers, for every state of a used code. -/
def Obligations.DataLineByState : Prop :=
  ∀ s : State, 2 ≤ s.cfg.N →
    (s.adc.rspState = idleCode ∨ s.adc.rspState = wait1Code ∨ s.adc.rspState = wait2Code →
      s.din = true) ∧
    (s.adc.rspState = nullbitCode → s.din = false) ∧
    (∀ i, i < s.cfg.N → s.adc.rspState = bitCode s.cfg i → s.din = s.adc.rspHoldSample.testBit i)

/-- R130 to R135 and R142 as operations: each completes, sets exactly the pending values of its rule and
leaves everything else as it was; the load completes where the table has the entry and is MF1 where it
has not; RSP.ABORT completes where the option is on. A row that does not exist for the configuration is
refused by name (log entry 24). -/
def Obligations.ResponderFsmOperationsComplete : Prop :=
  ∀ s : State,
    exec .rspIdleHold s = .next s ∧
    exec .rspIdleGo s = .next { s with adcNext := { s.adcNext with rspState := 1 } } ∧
    (∀ b q, s.gtab[s.adc.rspIdx]? = some (b, q) →
      exec .rspWait1 s = .next { s with adcNext :=
        { s.adcNext with rspHoldBit := b, rspHoldSample := pat s.cfg.N q, rspState := 2 } }) ∧
    (s.gtab.length ≤ s.adc.rspIdx →
      exec .rspWait1 s = .fault (.mf1OutOfTable s.adc.rspIdx s.tick)) ∧
    exec .rspWait2 s = .next { s with adcNext := { s.adcNext with rspState := 3 } } ∧
    exec .rspNullbit s = .next { s with adcNext :=
      { s.adcNext with rspState := s.cfg.N + 3 - (s.cfg.N - 1) } } ∧
    (∀ p ∈ [(Instr.rspBit9, 9), (.rspBit8, 8), (.rspBit7, 7), (.rspBit6, 6), (.rspBit5, 5),
        (.rspBit4, 4), (.rspBit3, 3), (.rspBit2, 2), (.rspBit1, 1)],
      (p.2 < s.cfg.N →
        exec p.1 s = .next { s with adcNext :=
          { s.adcNext with rspState := s.cfg.N + 4 - p.2 } }) ∧
      (s.cfg.N ≤ p.2 → exec p.1 s = .refused (.noSuchBit p.2))) ∧
    (∀ i, 1 ≤ i → i < s.cfg.N →
      exec (.rspBitN i) s = .next { s with adcNext :=
        { s.adcNext with rspState := s.cfg.N + 4 - i } }) ∧
    (∀ i, i = 0 ∨ s.cfg.N ≤ i → exec (.rspBitN i) s = .refused (.noSuchBit i)) ∧
    exec .rspBit0 s = .next { s with adcNext := { s.adcNext with rspState := 0 } } ∧
    (s.cfg.rspAbort = true →
      exec .rspAbort s = .next { s with adcNext := { s.adcNext with rspState := 0 } }) ∧
    (s.cfg.rspAbort = false → exec .rspAbort s = .refused .abortAbsent)

/-- R130: the Responder's tick in IDLE holds while the device is not selected and starts when it is; the
`cs` it sees is `dec_cs` as the `sys` edge of the same tick left it; the holding register keeps its
value, and the line is high. -/
def Obligations.ResponderIdleTick : Prop :=
  ∀ s t : State, s.Wf → s.nextRst = false → s.adc.rspState = idleCode → step s = .next t →
    s.din = true ∧
    (t.sys.decCs = true → t.adc.rspState = idleCode) ∧
    (t.sys.decCs = false → t.adc.rspState = wait1Code) ∧
    t.adc.rspHoldSample = s.adc.rspHoldSample ∧ t.adc.rspHoldBit = s.adc.rspHoldBit

/-- R131: the tick in WAIT1, without an abort, loads the entry at the pre-edge index and goes to WAIT2; an
index past the table is the fault MF1 with the index and the tick's number; the line is high. Without the
option, or with the device selected (the Decoder not finishing a transfer in this tick and `dec_cs` 0),
nothing aborts. -/
def Obligations.ResponderLoadTick : Prop :=
  ∀ s : State, s.Wf → s.nextRst = false → s.adc.rspState = wait1Code →
    (s.cfg.rspAbort = false ∨ (s.sys.decCs = false ∧ s.sys.decState ≠ bitCode s.cfg 0)) →
    (s.cfg.L ≤ s.adc.rspIdx → step s = .fault (.mf1OutOfTable s.adc.rspIdx (s.tick + 1))) ∧
    (∀ b q, s.gtab[s.adc.rspIdx]? = some (b, q) →
      ∃ t, step s = .next t ∧ t.adc.rspHoldBit = b ∧ t.adc.rspState = wait2Code ∧
        (t.adc.rspHoldSample : Int) = q % 2 ^ s.cfg.N) ∧
    s.din = true

/-- R132 to R135: without an abort the Responder goes from WAIT2 to NULLBIT to BIT(N-1) down to BIT(0) and
back to IDLE, each state drives its value onto the line, and the holding register keeps its value. -/
def Obligations.ResponderSerialTick : Prop :=
  ∀ s t : State, s.Wf → s.nextRst = false → step s = .next t →
    (s.cfg.rspAbort = false ∨ t.sys.decCs = false) →
    (s.adc.rspState = wait2Code → t.adc.rspState = nullbitCode ∧ s.din = true) ∧
    (s.adc.rspState = nullbitCode →
      t.adc.rspState = bitCode s.cfg (s.cfg.N - 1) ∧ s.din = false) ∧
    (∀ i, 1 ≤ i → i < s.cfg.N → s.adc.rspState = bitCode s.cfg i →
      t.adc.rspState = bitCode s.cfg (i - 1) ∧ s.din = s.adc.rspHoldSample.testBit i) ∧
    (s.adc.rspState = bitCode s.cfg 0 →
      t.adc.rspState = idleCode ∧ s.din = s.adc.rspHoldSample.testBit 0) ∧
    (wait2Code ≤ s.adc.rspState →
      t.adc.rspHoldSample = s.adc.rspHoldSample ∧ t.adc.rspHoldBit = s.adc.rspHoldBit)

/-- R142: with the option, a device-select asserted in any state but IDLE returns the Responder to IDLE;
no load is made, and the counter still runs. Without the option no selector word is RSP.ABORT's. -/
def Obligations.ResponderAbortTick : Prop :=
  (∀ s t : State, s.Wf → s.nextRst = false → step s = .next t → s.cfg.rspAbort = true →
    t.sys.decCs = true → s.adc.rspState ≠ idleCode →
    t.adc.rspState = idleCode ∧ t.adc.rspHoldSample = s.adc.rspHoldSample ∧
      t.adc.rspHoldBit = s.adc.rspHoldBit ∧
      (s.adc.rspCnt ≠ s.cfg.C → t.adc.rspCnt = s.adc.rspCnt + 1 ∧ t.adc.rspIdx = s.adc.rspIdx) ∧
      (s.adc.rspCnt = s.cfg.C → t.adc.rspCnt = 0 ∧
        t.adc.rspIdx = (s.adc.rspIdx + 1) % 2 ^ s.cfg.IW)) ∧
  ∀ (c : Config) (w : Nat), c.rspAbort = false → decode c .rsel w ≠ .ok .rspAbort

/-- R140, R141 as operations: RSP.COUNT and RSP.WRAP complete in every state and change the counter, or the
counter and the index, only. -/
def Obligations.ResponderCounterOperationsComplete : Prop :=
  ∀ s : State,
    exec .rspCount s = .next { s with adcNext :=
      { s.adcNext with rspCnt := (s.adc.rspCnt + 1) % 2 ^ s.cfg.RW } } ∧
    exec .rspWrap s = .next { s with adcNext :=
      { s.adcNext with rspCnt := 0, rspIdx := (s.adc.rspIdx + 1) % 2 ^ s.cfg.IW } }

/-- R140, R141: the counter of a tick without reset; below the top of its width the index is exact. -/
def Obligations.ResponderCounterTick : Prop :=
  ∀ s t : State, s.Wf → s.nextRst = false → step s = .next t →
    (s.adc.rspCnt ≠ s.cfg.C → t.adc.rspCnt = s.adc.rspCnt + 1 ∧ t.adc.rspIdx = s.adc.rspIdx) ∧
    (s.adc.rspCnt = s.cfg.C → t.adc.rspCnt = 0 ∧
      t.adc.rspIdx = (s.adc.rspIdx + 1) % 2 ^ s.cfg.IW)

/-! ### The Accumulator -/

/-- R191, R192, R193 as operations: each completes in every state and sets exactly the pending values of
its rule. -/
def Obligations.AccumulatorOperationsComplete : Prop :=
  ∀ s : State,
    exec .accHold s = .next { s with sysNext := { s.sysNext with accValid := false } } ∧
    exec .accAdd s = .next { s with sysNext := { s.sysNext with
      accSum := wrap s.cfg.W (s.sys.accSum + s.sys.decSample)
      accCnt := (s.sys.accCnt + 1) % 2 ^ s.cfg.CW
      accValid := false } } ∧
    exec .accEmit s = .next { s with sysNext := { s.sysNext with
      accOut := wrap s.cfg.W (s.sys.accSum + s.sys.decSample)
      accValid := true
      accSum := 0
      accCnt := 0 } }

/-- R190 to R193: what a tick without reset does to the Accumulator, by the pulse it reads and the
boundary value. -/
def Obligations.AccumulatorTick : Prop :=
  ∀ s t : State, s.Wf → s.nextRst = false → step s = .next t →
    (s.cfg.accMode = .literal → s.cfg.LIM = s.cfg.D) ∧
    (s.cfg.accMode = .corrected → s.cfg.LIM = s.cfg.D - 1) ∧
    (s.sys.decValid = false →
      t.sys.accValid = false ∧ t.sys.accCnt = s.sys.accCnt ∧ t.sys.accSum = s.sys.accSum ∧
        t.sys.accOut = s.sys.accOut) ∧
    (s.sys.decValid = true → s.sys.accCnt = s.cfg.LIM →
      t.sys.accOut = wrap s.cfg.W (s.sys.accSum + s.sys.decSample) ∧ t.sys.accValid = true ∧
        t.sys.accSum = 0 ∧ t.sys.accCnt = 0) ∧
    (s.sys.decValid = true → s.sys.accCnt ≠ s.cfg.LIM →
      t.sys.accSum = wrap s.cfg.W (s.sys.accSum + s.sys.decSample) ∧
        t.sys.accCnt = s.sys.accCnt + 1 ∧ t.sys.accValid = false ∧ t.sys.accOut = s.sys.accOut)

/-- R190, R195, R197: from a cleared Accumulator, LIM + 1 accepted samples (D + 1 with LITERAL, D with
CORRECTED) end in one emitted sum, the wrapped sum of exactly those samples, which is the exact sum
whenever it fits; the Accumulator is cleared again. -/
def Obligations.AccumulatorEmitsGroupSum : Prop :=
  ∀ (s : State) (xs : List Int), s.cfg.Legal → s.sys.accCnt = 0 → s.sys.accSum = 0 →
    xs.length = (match s.cfg.accMode with | .literal => s.cfg.D + 1 | .corrected => s.cfg.D) →
    ∃ t, acceptAll xs s = .next t ∧ t.sys.accValid = true ∧ t.sys.accCnt = 0 ∧ t.sys.accSum = 0 ∧
      t.sys.accOut = wrap s.cfg.W xs.sum ∧
      (fitsSigned s.cfg.W xs.sum = true → t.sys.accOut = xs.sum)

/-! ### The Queue and the read cursor -/

/-- R210 to R213 as operations: Q.NOWRITE and Q.READ complete in every state, the two Q.WRITE rows wherever
the write cursor names a slot (past the slots they are the model's own fault, log entry 19). -/
def Obligations.QueueOperationsComplete : Prop :=
  ∀ s : State,
    exec .qNowrite s = .next s ∧
    (s.sys.qWr < s.sys.qmem.length →
      exec .qWriteAdv s = .next { s with sysNext := { s.sysNext with
        qmem := s.sysNext.qmem.set s.sys.qWr (truncEntry s.cfg s.sys.accOut)
        qWr := (s.sys.qWr + 1) % 2 ^ s.cfg.QW } } ∧
      exec .qWriteWrap s = .next { s with sysNext := { s.sysNext with
        qmem := s.sysNext.qmem.set s.sys.qWr (truncEntry s.cfg s.sys.accOut)
        qWr := 0 } }) ∧
    (s.sys.qmem.length ≤ s.sys.qWr →
      exec .qWriteAdv s = .fault (.queueWriteOutside s.sys.qWr) ∧
      exec .qWriteWrap s = .fault (.queueWriteOutside s.sys.qWr)) ∧
    (∀ v, s.sys.qmem[s.sys.hRd]? = some v → exec .qRead s = .next { s with qOutRead := v }) ∧
    (s.sys.qmem.length ≤ s.sys.hRd →
      exec .qRead s = .next { s with
        qOutRead := wrap s.cfg.T (Config.readDraw s.draws), draws := s.draws + 1 })

/-- R102: TRUNC of a W-bit value is floor(v / 2^(W-T)) with MSB selection and wrap_T(v) with LSB. -/
def Obligations.TruncationIsFloorDivision : Prop :=
  ∀ (c : Config) (v : Int), 1 ≤ c.T → c.T ≤ c.W → fitsSigned c.W v = true →
    (c.truncSelect = .msb → truncEntry c v = ⌊(v : ℚ) / 2 ^ (c.W - c.T)⌋) ∧
    (c.truncSelect = .lsb → truncEntry c v = wrap c.T v)

/-- R210, R211, R212: what a tick without reset does to the Queue: with an accepted sum it writes the slot
at the write cursor and no other and advances the cursor modulo K; without one, nothing. -/
def Obligations.QueueWriteTick : Prop :=
  ∀ s t : State, s.Wf → s.nextRst = false → step s = .next t →
    (s.sys.accValid = false →
      t.sys.qWr = s.sys.qWr ∧ ∀ i, Memory.read t.sys.qmem i = Memory.read s.sys.qmem i) ∧
    (s.sys.accValid = true →
      t.sys.qWr = (if s.sys.qWr = s.cfg.K - 1 then 0 else s.sys.qWr + 1) ∧
      Memory.read t.sys.qmem s.sys.qWr = some (truncEntry s.cfg s.sys.accOut) ∧
      ∀ i, i ≠ s.sys.qWr → Memory.read t.sys.qmem i = Memory.read s.sys.qmem i)

/-- R213, R73: in every well-formed state, one whose tick is MF1 too, `q_out` is a T-bit value, the slot at
the read index where there is one; outside the K slots it is an unconstrained value, fresh at each such
read; and the `sys` edge of the coming tick completes. The free value `Config.readDraw` and its count `draws`
(log entry 5) and the record `qOutRead` of what the wire carried before the edges (log entry 14) are the
model's own. -/
def Obligations.QueueReadPort : Prop :=
  ∀ s : State, s.Wf →
    fitsSigned s.cfg.T s.qOut = true ∧
    (s.sys.hRd < s.cfg.K → some s.qOut = Memory.read s.sys.qmem s.sys.hRd) ∧
    (s.cfg.K ≤ s.sys.hRd → s.qOut = wrap s.cfg.T (Config.readDraw s.draws)) ∧
    (∃ u, sysEdge s.beginTick = .next u ∧ u.qOutRead = s.qOut ∧
      u.draws = if s.sys.hRd < s.cfg.K then s.draws else s.draws + 1) ∧
    ∀ t, step s = .next t → t.qOutRead = s.qOut ∧
      t.draws = if s.sys.hRd < s.cfg.K then s.draws else s.draws + 1

/-- R214: numbering accepted writes from a cursor at 0, write w goes to slot w mod K (from 0), so a slot
reads the truncation of the last value written to it, and the cursor counts the writes modulo K. -/
def Obligations.QueueRingOrder : Prop :=
  ∀ (s t : State) (vs : List Int), s.Wf → s.sys.qWr = 0 → acceptWrites vs s = .next t →
    t.sys.qWr = vs.length % s.cfg.K ∧
    ∀ w v, vs[w]? = some v → vs.length ≤ w + s.cfg.K →
      Memory.read t.sys.qmem (w % s.cfg.K) = some (truncEntry s.cfg v)

/-- R235, R236 as operations: both complete in every state. -/
def Obligations.ReadCursorOperationsComplete : Prop :=
  ∀ s : State,
    exec .hRdwait s = .next { s with sysNext :=
      { s.sysNext with hRdcnt := (s.sys.hRdcnt + 1) % 2 ^ s.cfg.PW } } ∧
    exec .hRdadv s = .next { s with sysNext :=
      { s.sysNext with hRdcnt := 0, hRd := (s.sys.hRd + 1) % 2 ^ s.cfg.QW } }

/-- R235, R236: the read cursor of a tick without reset. -/
def Obligations.ReadCursorTick : Prop :=
  ∀ s t : State, s.Wf → s.nextRst = false → step s = .next t →
    (s.sys.hRdcnt ≠ s.cfg.rdPeriod - 1 →
      t.sys.hRdcnt = s.sys.hRdcnt + 1 ∧ t.sys.hRd = s.sys.hRd) ∧
    (s.sys.hRdcnt = s.cfg.rdPeriod - 1 →
      t.sys.hRdcnt = 0 ∧ t.sys.hRd = (s.sys.hRd + 1) % 2 ^ s.cfg.QW)

/-! ### Frames -/

/-- What the operations of the `sys` domain leave alone: everything but pending `sys` values, and of those
every other component's; Q.WRITE stores to the one slot its cursor names. -/
def Obligations.SysOperationsFrame : Prop :=
  ∀ (s t : State) (i : Instr), exec i s = .next t → i ≠ .reset →
    (i.format = .dsel →
      OnlySysNext s t ∧ SameAcc s.sysNext t.sysNext ∧ SameQueue s.sysNext t.sysNext ∧
        t.sysNext.qWr = s.sysNext.qWr ∧ SameCursor s.sysNext t.sysNext) ∧
    (i.format = .asel →
      OnlySysNext s t ∧ SameDec s.sysNext t.sysNext ∧ SameQueue s.sysNext t.sysNext ∧
        t.sysNext.qWr = s.sysNext.qWr ∧ SameCursor s.sysNext t.sysNext) ∧
    (i.format = .qsel →
      OnlySysNext s t ∧ SameDec s.sysNext t.sysNext ∧ SameAcc s.sysNext t.sysNext ∧
        SameCursor s.sysNext t.sysNext ∧
        ∀ a, a ≠ s.sys.qWr →
          Memory.read t.sysNext.qmem a = Memory.read s.sysNext.qmem a) ∧
    (i.format = .hsel →
      OnlySysNext s t ∧ SameDec s.sysNext t.sysNext ∧ SameAcc s.sysNext t.sysNext ∧
        SameQueue s.sysNext t.sysNext ∧ t.sysNext.qWr = s.sysNext.qWr) ∧
    (i.format = .fixed .qRead → t = { s with qOutRead := t.qOutRead, draws := t.draws })

/-- What the operations of the `adc` domain leave alone: everything but pending `adc` values, and of those
the other component's. -/
def Obligations.AdcOperationsFrame : Prop :=
  ∀ (s t : State) (i : Instr), exec i s = .next t →
    (i.format = .rsel → OnlyAdcNext s t ∧ SameRspCount s.adcNext t.adcNext) ∧
    (i.format = .csel → OnlyAdcNext s t ∧ SameRspFsm s.adcNext t.adcNext)

/-- R29, R50, R71, R13: no step changes the configuration, but that the step that accepts a proposal makes
it the configuration; no tick changes GTAB; after a tick nothing is pending, one `rst` input has been used
and one tick counted. -/
def Obligations.TickLeavesConfigAndTable : Prop :=
  ∀ s t : State, step s = .next t →
    (∀ p, s.stage = .construct p → t.cfg = p.toConfig) ∧
    ((∀ p, s.stage ≠ .construct p) → t.cfg = s.cfg) ∧
    (s.stage = .run → t.stage = .run ∧ t.gtab = s.gtab ∧ t.sysNext = t.sys ∧ t.adcNext = t.adc ∧
      t.rstIn = s.rstIn.tail ∧ t.rst = s.nextRst ∧ t.tick = s.tick + 1)

/-! ### Reset -/

/-- R272 as an operation: RESET completes in every state and sets every register's pending value to its
reset value, the queue's slots to what they hold. -/
def Obligations.ResetOperationCompletes : Prop :=
  ∀ s : State, ∃ t, exec .reset s = .next t ∧
    t = { s with sysNext := t.sysNext, adcNext := t.adcNext } ∧
    t.sysNext.decState = 0 ∧ t.sysNext.decCs = true ∧ t.sysNext.decValid = false ∧
    t.sysNext.decSample = 0 ∧ t.sysNext.accCnt = 0 ∧ t.sysNext.accSum = 0 ∧ t.sysNext.accOut = 0 ∧
    t.sysNext.accValid = false ∧ t.sysNext.qWr = 0 ∧ t.sysNext.hRd = 0 ∧ t.sysNext.hRdcnt = 0 ∧
    (∀ i, Memory.read t.sysNext.qmem i = Memory.read s.sys.qmem i) ∧
    t.adcNext.rspState = 0 ∧ t.adcNext.rspCnt = 0 ∧ t.adcNext.rspIdx = 0 ∧
    t.adcNext.rspHoldSample = 0 ∧ t.adcNext.rspHoldBit = false

/-- R271, R272: a tick with rst = 1 completes from every state of a constructed block, even one with an
unused state code (R257), resets both domains and leaves every slot of the queue as it was. -/
def Obligations.ResetTickResetsBothDomains : Prop :=
  ∀ s : State, s.stage = .run → s.nextRst = true →
    ∃ t, step s = .next t ∧
      t.sys.decState = 0 ∧ t.sys.decCs = true ∧ t.sys.decValid = false ∧ t.sys.decSample = 0 ∧
      t.sys.accCnt = 0 ∧ t.sys.accSum = 0 ∧ t.sys.accOut = 0 ∧ t.sys.accValid = false ∧
      t.sys.qWr = 0 ∧ t.sys.hRd = 0 ∧ t.sys.hRdcnt = 0 ∧
      (∀ i, Memory.read t.sys.qmem i = Memory.read s.sys.qmem i) ∧
      t.adc.rspState = 0 ∧ t.adc.rspCnt = 0 ∧ t.adc.rspIdx = 0 ∧ t.adc.rspHoldSample = 0 ∧
      t.adc.rspHoldBit = false

/-- R270: the power-on state of every configuration and table: registers at their reset values, the
queue's slots at the power-on contents, the device deselected, the line high, no pulse. That the listed
contents are the configuration's `qmemInit` is the model's form (log entries 4 and 31). -/
def Obligations.PowerOnState : Prop :=
  ∀ (c : Config) (tbl : List (Bool × Int)), 1 ≤ c.K →
    (State.powerOn c tbl).sys = {
      decState := 0, decCs := true, decValid := false, decSample := 0, accCnt := 0, accSum := 0,
      accOut := 0, accValid := false, qWr := 0, qmem := Memory.initial c, hRd := 0, hRdcnt := 0 } ∧
    (State.powerOn c tbl).adc = {
      rspState := 0, rspCnt := 0, rspIdx := 0, rspHoldSample := 0, rspHoldBit := false } ∧
    (State.powerOn c tbl).cs = true ∧ (State.powerOn c tbl).din = true ∧
    (State.powerOn c tbl).dataValid = false ∧ (State.powerOn c tbl).qOut = qmemInitial c 0 ∧
    (∀ i, i < c.K → Memory.read (State.powerOn c tbl).sys.qmem i = some (qmemInitial c i)) ∧
    (∀ i v, c.qmemInit[i]? = some v → qmemInitial c i = v)

/-! ### Model faults -/

/-- R104, R256: the four UNUSED rows are the model fault MF2 in every state. -/
def Obligations.UnusedRowsAreMf2 : Prop :=
  ∀ s : State,
    exec .unusedDsel14 s = .fault (.mf2UnreachableState .decoder 14) ∧
    exec .unusedDsel15 s = .fault (.mf2UnreachableState .decoder 15) ∧
    exec .unusedRsel14 s = .fault (.mf2UnreachableState .responder 14) ∧
    exec .unusedRsel15 s = .fault (.mf2UnreachableState .responder 15)

/-- R256, R257: a tick without reset in which the Decoder holds an unused code is MF2 of the Decoder,
whatever the Responder holds; one in which only the Responder does is MF2 of the Responder. -/
def Obligations.UnusedCodeFaultsTheTick : Prop :=
  ∀ s : State, s.stage = .run → s.nextRst = false →
    (s.cfg.N + 4 ≤ s.sys.decState → s.sys.decState < 2 ^ s.cfg.SW →
      step s = .fault (.mf2UnreachableState .decoder s.sys.decState)) ∧
    (s.sys.decState ≤ s.cfg.N + 3 → s.sys.qWr < s.sys.qmem.length →
      s.cfg.N + 4 ≤ s.adc.rspState → s.adc.rspState < 2 ^ s.cfg.SW →
      step s = .fault (.mf2UnreachableState .responder s.adc.rspState))

/-! ### The Generator and construction -/

/-- R112 to R116 as operations: each completes where its rule gives it an effect, with that effect. GEN.INIT
also starts the procedure of R117: index 0, an empty table. The phase is kept in turns, as x·f1 + y·f0 (log
entry 9). GEN.INIT without a bit, a symbol past the sequence and a sample outside N bits are the construction
errors CE3, CE4 and CE2. -/
def Obligations.GeneratorOperationsComplete : Prop :=
  ∀ s : State,
    (∀ b, 1 ≤ s.cfg.B → s.cfg.bits[0]? = some b →
      exec .genInit s = .next { s with
        gen := { lastSym := 0, curBit := b, phase := { one := 0, zero := 0 } }, genT := 0,
        gtab := [] }) ∧
    (s.cfg.B = 0 → exec .genInit s = .refused (.ce3ZeroCount .B)) ∧
    exec .genSame s = .next s ∧
    (∀ b, genSym s.cfg s.genT < s.cfg.B → s.cfg.bits[genSym s.cfg s.genT]? = some b →
      exec .genNewsym s = .next { s with gen := { s.gen with lastSym := genSym s.cfg s.genT } } ∧
      exec .genFlip s = .next { s with gen := {
        lastSym := genSym s.cfg s.genT
        curBit := b
        phase := s.gen.phase.add
          ((Turns.ofTone (genTurns s.cfg s.genT) s.gen.curBit).sub
            (Turns.ofTone (genTurns s.cfg s.genT) b)) } }) ∧
    (s.cfg.B ≤ genSym s.cfg s.genT →
      exec .genNewsym s = .refused (.ce4BadConfig (.symbol s.genT (genSym s.cfg s.genT))) ∧
      exec .genFlip s = .refused (.ce4BadConfig (.symbol s.genT (genSym s.cfg s.genT)))) ∧
    (fitsSigned s.cfg.N (genSample s.cfg s.genT s.gen) = true → s.genT ≤ s.gtab.length →
      ∃ t, exec .genEmit s = .next t ∧ t = { s with gtab := t.gtab } ∧
        t.gtab[s.genT]? = some (s.gen.curBit, genSample s.cfg s.genT s.gen) ∧
        ∀ i, i ≠ s.genT → i < s.gtab.length → t.gtab[i]? = s.gtab[i]?) ∧
    (fitsSigned s.cfg.N (genSample s.cfg s.genT s.gen) = false →
      exec .genEmit s =
        .refused (.ce2WidthTooSmall (.tableValue s.genT (genSample s.cfg s.genT s.gen))))

/-- R119: where GEN.FLIP fires, the new tone with the new phase continues the old tone's argument, and the
argument advances from the index before by one increment of the old tone. The arguments are the real
numbers of turns (argument / 2π, log entry 9), for any two real tones. -/
def Obligations.PhaseContinuousAtFlip : Prop :=
  ∀ (c : Config) (t : Nat) (b : Bool) (v : GenVars), 1 ≤ t →
    (genArg c t (genFlipVars c t b v)).value c = (genArg c t v).value c ∧
    (genArg c t (genFlipVars c t b v)).value c - (genArg c (t - 1) v).value c =
      (genTurns c 1 : ℝ) * (genFreq c v.curBit).value ∧
    (genFlipVars c t b v).phase.value c = v.phase.value c +
      (genTurns c t : ℝ) * ((genFreq c v.curBit).value - (genFreq c b).value) ∧
    (genArg c t v).value c = (genTurns c t : ℝ) * (genFreq c v.curBit).value + v.phase.value c

/-- R122: without a bias every sample lies in [-(2^(N-1) - 1), 2^(N-1) - 1], whatever the cosine is, and
fits the signed N-bit sample; so without a bias GEN.EMIT is never the construction error CE2. -/
def Obligations.UnbiasedSamplesFit : Prop :=
  (∀ (c : Config) (t : Nat) (v : GenVars), 1 ≤ c.N → c.quantBias = 0 →
    -(2 ^ (c.N - 1) - 1) ≤ genSample c t v ∧ genSample c t v ≤ 2 ^ (c.N - 1) - 1 ∧
      fitsSigned c.N (genSample c t v) = true) ∧
  ∀ s : State, 1 ≤ s.cfg.N → s.cfg.quantBias = 0 → ∃ t, exec .genEmit s = .next t

/-- R116: `trunc` takes the fraction off toward zero; `round_half_even` is a nearest integer, and the even
one of two equally near. -/
def Obligations.QuantisersRoundAsStated : Prop :=
  ∀ x : Rat,
    (0 ≤ x → 0 ≤ x - truncQ x ∧ x - truncQ x < 1) ∧
    (x < 0 → x - truncQ x ≤ 0 ∧ -1 < x - truncQ x) ∧
    |x - roundHalfEven x| ≤ 1 / 2 ∧
    (|x - roundHalfEven x| = 1 / 2 → roundHalfEven x % 2 = 0)

/-- R251, R252, R253, checks 1 to 3: construction accepts a configuration's parameters exactly when every
one is in its legal range, and of all proposals, negative integers among them, exactly those. -/
def Obligations.LegalParametersAreInRange : Prop :=
  (∀ c : Config, c.Legal ↔ c.InRange) ∧
  ∀ p : Proposal, p.Accepted ↔ ∃ c : Config, c.InRange ∧ p = c.proposal

/-- R252: construction reports the first check of 1 to 3 that fails, for every check of the list and every
proposal (vectors CE-1 to CE-4, CE-7). The place of a negative D, K, B or P is the model's (log entry 33). -/
def Obligations.ConstructionReportsFirstError : Prop :=
  ∀ (p : Proposal) (k : Nat) (bad : Prop) (r : Refusal), p.reportOrder[k]? = some (bad, r) → bad →
    (∀ j b q, j < k → p.reportOrder[j]? = some (b, q) → ¬ b) →
    step (State.unbuilt p) = .refused r

/-- R112 to R117, R120, R122, R252, R270: with BITS given, construction runs the Generator's operations for
all L indices, any tones, COS and bias, and ends in the power-on state with the table of R117 when every
symbol is inside the sequence and every sample fits N bits (which without a bias every sample does). The
first index that fails is refused: CE4 for its symbol, else CE2 for its sample; after the table, the first
listed power-on value outside T bits is CE4. The number of steps is the model's (log entry 12). -/
def Obligations.ConstructionRunsTheGenerator : Prop :=
  ∀ (c : Config) (bs : List Bool), c.Legal → c.source = .bits bs →
    ((∀ t, t < c.L → genSym c t < c.B) →
      (c.quantBias = 0 ∨ ∀ e ∈ genEntries c, fitsSigned c.N e.2 = true) →
      (c.QueueInitFits →
        stepsFrom (2 * c.L + 3) (State.unbuilt c.proposal) =
          .next (State.powerOn c (genEntries c))) ∧
      (∀ i v, i < c.K → c.qmemInit[i]? = some v → fitsSigned c.T v = false →
        (∀ j u, j < i → c.qmemInit[j]? = some u → fitsSigned c.T u = true) →
        stepsFrom (2 * c.L + 3) (State.unbuilt c.proposal) =
          .refused (.ce4BadConfig (.queueInit i v)))) ∧
    (∀ t, t < c.L → c.B ≤ genSym c t → (∀ u, u < t → genSym c u < c.B) →
      (∀ u e, u < t → (genEntries c)[u]? = some e → fitsSigned c.N e.2 = true) →
      stepsFrom (2 * t + 3) (State.unbuilt c.proposal) =
        .refused (.ce4BadConfig (.symbol t (genSym c t)))) ∧
    (∀ t b q, (genEntries c)[t]? = some (b, q) → fitsSigned c.N q = false →
      (∀ u, u ≤ t → genSym c u < c.B) →
      (∀ u e, u < t → (genEntries c)[u]? = some e → fitsSigned c.N e.2 = true) →
      stepsFrom (2 * t + 4) (State.unbuilt c.proposal) =
        .refused (.ce2WidthTooSmall (.tableValue t q)))

/-- R252: a given table is refused for its length, else for its first bit that is neither 0 nor 1, else for
its first value outside N bits; after it, the first listed power-on value outside T bits is refused; with
nothing to refuse, construction ends in the power-on state with the table. The number of steps is the
model's (log entry 12). -/
def Obligations.ConstructionTakesAGivenTable : Prop :=
  ∀ (c : Config) (tbl : List (Int × Int)), c.Legal → c.source = .given tbl →
    (tbl.length ≠ c.L →
      step (State.unbuilt c.proposal) = .refused (.ce4BadConfig (.tableLength tbl.length))) ∧
    (∀ t b q, tbl.length = c.L → tbl[t]? = some (b, q) → b ≠ 0 → b ≠ 1 →
      (∀ u e, u < t → tbl[u]? = some e → e.1 = 0 ∨ e.1 = 1) →
      step (State.unbuilt c.proposal) = .refused (.ce4BadConfig (.tableBit t b))) ∧
    (tbl.length = c.L → (∀ e ∈ tbl, e.1 = 0 ∨ e.1 = 1) →
      (∀ t b q, tbl[t]? = some (b, q) → fitsSigned c.N q = false →
        (∀ u e, u < t → tbl[u]? = some e → fitsSigned c.N e.2 = true) →
        step (State.unbuilt c.proposal) = .refused (.ce2WidthTooSmall (.tableValue t q))) ∧
      ((∀ e ∈ tbl, fitsSigned c.N e.2 = true) →
        (∀ i v, i < c.K → c.qmemInit[i]? = some v → fitsSigned c.T v = false →
          (∀ j u, j < i → c.qmemInit[j]? = some u → fitsSigned c.T u = true) →
          stepsFrom 2 (State.unbuilt c.proposal) =
            .refused (.ce4BadConfig (.queueInit i v))) ∧
        (c.QueueInitFits →
          stepsFrom 2 (State.unbuilt c.proposal) = .next (State.powerOn c (givenTable tbl)))))

/-! ### Invariants that every step keeps -/

/-- Every tick of a well-formed state ends in a next state or in MF1, and in MF1 only when it loads an
entry past the table (R256). -/
def Obligations.WellFormedTickCompletes : Prop :=
  ∀ s : State, s.Wf →
    (∃ t, step s = .next t) ∨
    (step s = .fault (.mf1OutOfTable s.adc.rspIdx (s.tick + 1)) ∧ s.nextRst = false ∧
      s.adc.rspState = wait1Code ∧ s.cfg.L ≤ s.adc.rspIdx)

/-- Every register stays inside the range 10_state.md gives it (R32 to R47), the queue in its K T-bit slots,
the table legal and nothing pending: kept by every step (and so MF2 is never raised, R104). -/
def Obligations.StepKeepsWellFormed : Prop :=
  ∀ s t : State, s.Wf → step s = .next t → t.Wf

/-- The power-on state of every legal configuration, table and power-on contents is well-formed, and a reset
state as R273 means it. -/
def Obligations.PowerOnIsWellFormed : Prop :=
  ∀ (c : Config) (tbl : List (Bool × Int)), c.Legal → TableWf c tbl →
    (State.powerOn c tbl).AtReset ∧ (c.QueueInitFits → (State.powerOn c tbl).Wf)

/-- The reset state is well-formed, in lock-step, and has captured what it holds. -/
def Obligations.ResetStateMeetsInvariants : Prop :=
  State.reset.Wf ∧ State.reset.Lockstep ∧ State.reset.Captured

/-- R167, R169: the FSMs are in the same state after every tick, reset or not, and the device is deselected
exactly in IDLE: kept by every step. -/
def Obligations.StepKeepsLockstep : Prop :=
  ∀ s t : State, s.Wf → s.Lockstep → step s = .next t → t.Lockstep

/-- R167, R168: the bits captured so far are the held sample's, and at the pulse the whole sample is: kept
by every step. -/
def Obligations.StepKeepsCaptured : Prop :=
  ∀ s t : State, s.Wf → s.Lockstep → s.Captured → step s = .next t → t.Captured

/-! ### From any reset state, without a later reset -/

/-- R143, R167, R169, R236, R273, R288: the schedule of the FSMs, the Responder's counter and index and the
read cursor. It holds with 0 in every reset state (after any tick with rst = 1, and in S_0), and every step
without a reset takes it from k to k + 1, so it holds k ticks after a reset. That the index never wraps
(R46) is part of it. -/
def Obligations.RunSchedule : Prop :=
  (∀ s t : State, s.Running → s.nextRst = true → step s = .next t → t.AtReset) ∧
  (∀ s : State, s.AtReset → s.OnSchedule 0) ∧
  (∀ (s t : State) (k : Nat), s.OnSchedule k → s.nextRst = false → step s = .next t →
    t.OnSchedule (k + 1)) ∧
  ∀ (s t : State) (k : Nat), s.AtReset → s.NoResetFor k → stepsFrom k s = .next t → t.OnSchedule k

/-- R166, R168, R273: the transfers. The predicate holds with 0 in every reset state and every step without
a reset takes it from k to k + 1; where it holds with k = (j + 1)(N + 4), and only there, the data-valid
pulse is seen, with the sample GTAB[idx(j)].q, which with C + 1 = N + 4 is GTAB[j].q. -/
def Obligations.PulsesCarryTheTable : Prop :=
  (∀ s : State, s.AtReset → s.OnTransfers 0) ∧
  (∀ (s t : State) (k : Nat), s.OnTransfers k → s.nextRst = false → step s = .next t →
    t.OnTransfers (k + 1)) ∧
  (∀ (s t : State) (k : Nat), s.AtReset → s.NoResetFor k → stepsFrom k s = .next t →
    t.OnTransfers k) ∧
  ∀ (s : State) (k : Nat), s.OnTransfers k →
    (s.sys.decValid = true ↔ ∃ j, k = (j + 1) * (s.cfg.N + 4)) ∧
    ∀ j, k = (j + 1) * (s.cfg.N + 4) →
      s.sys.decSample = tableSample s.gtab (loadIndex s.cfg j) ∧
      (s.cfg.C + 1 = s.cfg.N + 4 → s.sys.decSample = tableSample s.gtab j)

/-- R194, R195, R273: the sums. The predicate holds with 0 in every reset state and every step without a
reset takes it from k to k + 1; where it holds with k = e(m) = (m + 1) G (N + 4) + 1, and only there, the
output-valid pulse is seen, and the output is the wrapped sum of the samples that transfers mG to
mG + G - 1 carry. -/
def Obligations.EmitsCarryGroupSums : Prop :=
  (∀ s : State, s.AtReset → s.OnSums 0) ∧
  (∀ (s t : State) (k : Nat), s.OnSums k → s.nextRst = false → step s = .next t →
    t.OnSums (k + 1)) ∧
  (∀ (s t : State) (k : Nat), s.AtReset → s.NoResetFor k → stepsFrom k s = .next t → t.OnSums k) ∧
  ∀ (s : State) (k : Nat), s.OnSums k →
    (s.sys.accValid = true ↔ ∃ m, k = (m + 1) * (s.cfg.LIM + 1) * (s.cfg.N + 4) + 1) ∧
    ∀ m, k = (m + 1) * (s.cfg.LIM + 1) * (s.cfg.N + 4) + 1 →
      s.sys.accOut = wrap s.cfg.W
        ((List.range (s.cfg.LIM + 1)).map fun i =>
          tableSample s.gtab (loadIndex s.cfg (m * (s.cfg.LIM + 1) + i))).sum

/-- R256, R273, R288: with C + 1 = N + 4 a block makes 1 + L (N + 4) ticks from any reset state without a
later reset, and the next one is MF1 with the index L and that tick's number. -/
def Obligations.AlignedRunEndsAtTableEnd : Prop :=
  ∀ s : State, s.AtReset → s.cfg.C + 1 = s.cfg.N + 4 →
    s.NoResetFor (2 + s.cfg.L * (s.cfg.N + 4)) →
    (∃ t, stepsFrom (1 + s.cfg.L * (s.cfg.N + 4)) s = .next t) ∧
    stepsFrom (2 + s.cfg.L * (s.cfg.N + 4)) s =
      .fault (.mf1OutOfTable s.cfg.L (s.tick + 2 + s.cfg.L * (s.cfg.N + 4)))
end

