-- ==== Sys2Proof/Laws/Bits.lean ====
section
/-!
SUPPORT. What the bit operations of Machine/Bits.lean do: ranges, wrapping, the positional write and the
least-exponent property of clog2 (R10, R12).
-/

namespace Sys2Proof.Machine

theorem two_pow_pos_int (w : Nat) : (0 : Int) < ((2 ^ w : Nat) : Int) := by
  exact_mod_cast Nat.two_pow_pos w

theorem two_pow_succ_half {w : Nat} (hw : 1 ≤ w) : 2 ^ w = 2 * 2 ^ (w - 1) := by
  rw [← Nat.pow_succ']
  congr 1
  omega

theorem pat_lt (w : Nat) (x : Int) : pat w x < 2 ^ w := by
  have h := Int.emod_lt_of_pos x (two_pow_pos_int w)
  have h0 := Int.emod_nonneg x (two_pow_pos_int w).ne'
  exact (Int.toNat_lt h0).2 h

theorem cut_lt (w x : Nat) : cut w x < 2 ^ w :=
  Nat.mod_lt _ (by positivity)

theorem cut_of_lt {w x : Nat} (h : x < 2 ^ w) : cut w x = x :=
  Nat.mod_eq_of_lt h

theorem pat_natCast_of_lt {w v : Nat} (h : v < 2 ^ w) : pat w (v : Int) = v := by
  unfold pat
  rw [← Int.natCast_mod, Int.toNat_natCast, Nat.mod_eq_of_lt h]

/-- A wrapped value is congruent to the value it wraps. -/
theorem pat_wrap (w : Nat) (x : Int) : pat w (wrap w x) = pat w x := by
  unfold pat wrap
  rw [Int.bmod_emod]

theorem pat_sext {w v : Nat} (h : v < 2 ^ w) : pat w (sext w v) = v := by
  rw [sext, pat_wrap, pat_natCast_of_lt h]

/-- `wrap_w(x)` lies in the signed range of width w (R12). -/
theorem fitsSigned_wrap {w : Nat} (hw : 1 ≤ w) (x : Int) : fitsSigned w (wrap w x) = true := by
  have h1 := Int.le_bmod (x := x) (m := 2 ^ w) (Nat.two_pow_pos w)
  have h2 := Int.bmod_lt (x := x) (m := 2 ^ w) (Nat.two_pow_pos w)
  have h3 := two_pow_succ_half hw
  rw [fitsSigned, decide_eq_true_iff, wrap]
  generalize 2 ^ w = m at *
  generalize 2 ^ (w - 1) = k at *
  omega

/-- `wrap_w` leaves a value of the range alone (R12). -/
theorem wrap_of_fits {w : Nat} (hw : 1 ≤ w) {x : Int} (h : fitsSigned w x = true) : wrap w x = x := by
  have h3 := two_pow_succ_half hw
  rw [fitsSigned, decide_eq_true_iff] at h
  rw [wrap]
  generalize 2 ^ w = m at *
  generalize 2 ^ (w - 1) = k at *
  apply Int.bmod_eq_of_le <;> omega

theorem sext_pat_of_fits {w : Nat} (hw : 1 ≤ w) {x : Int} (h : fitsSigned w x = true) :
    sext w (pat w x) = x := by
  have hx : ((pat w x : Nat) : Int) = x % ((2 ^ w : Nat) : Int) :=
    Int.toNat_of_nonneg (Int.emod_nonneg _ (two_pow_pos_int w).ne')
  rw [sext, hx, wrap, Int.emod_bmod]
  exact wrap_of_fits hw h

/-- The positional write changes its own bit only (R99). -/
theorem testBit_setBit (p i j : Nat) (b : Bool) :
    (setBit p i b).testBit j = if j = i then b else p.testBit j := by
  by_cases hj : j = i
  · subst hj
    cases b <;> simp [setBit, Nat.testBit_or, Nat.testBit_xor]
  · cases b <;> simp [setBit, Nat.testBit_or, Nat.testBit_xor, hj, Ne.symm hj]

theorem setBit_lt {p i w : Nat} (b : Bool) (hp : p < 2 ^ w) (hi : i < w) : setBit p i b < 2 ^ w := by
  apply Nat.lt_pow_two_of_testBit
  intro j hj
  rw [testBit_setBit, if_neg (by omega)]
  exact Nat.testBit_lt_two_pow (lt_of_lt_of_le hp (Nat.pow_le_pow_right (by norm_num) hj))

/-- `2^clog2(x) ≥ x` (R10). -/
theorem le_two_pow_clog2 (x : Nat) : x ≤ 2 ^ clog2 x := by
  unfold clog2
  split
  · simpa
  · rename_i h
    have h1 := Nat.lt_log2_self (n := x - 1)
    omega

/-- clog2 is the least such exponent (R10). -/
theorem clog2_le_of_le {x k : Nat} (h : x ≤ 2 ^ k) : clog2 x ≤ k := by
  unfold clog2
  split
  · omega
  · rename_i hx
    have : Nat.log2 (x - 1) < k := (Nat.log2_lt (by omega)).2 (by omega)
    omega

@[simp] theorem bitNat_true : bitNat true = 1 := rfl
@[simp] theorem bitNat_false : bitNat false = 0 := rfl

theorem bitNat_le (b : Bool) : bitNat b ≤ 1 := by cases b <;> simp

/-- Every state code a configuration uses fits the state register (R10, R91). -/
theorem codes_fit (c : Config) : c.N + 4 ≤ 2 ^ c.SW :=
  le_two_pow_clog2 _

theorem SW_pos (c : Config) : 2 ≤ c.SW := by
  by_contra h
  have h1 : 2 ^ c.SW ≤ 2 ^ 1 := Nat.pow_le_pow_right (by norm_num) (by omega)
  have := codes_fit c
  omega

end Sys2Proof.Machine
end

