-- ==== Sys2Proof/Laws/Memory.lean ====
section
/-!
SUPPORT. The queue storage: read after write, and that every operation on it keeps its canonical form
(K slots of T-bit values, R41, R72).
-/

namespace Sys2Proof.Machine

@[simp] theorem Memory.length_write (m : Memory) (i : Nat) (v : Int) :
    (Memory.write m i v).length = m.length := by
  simp [Memory.write]

/-- What every read sees after a write. -/
theorem Memory.read_write (m : Memory) (i j : Nat) (v : Int) :
    Memory.read (Memory.write m i v) j =
      if j = i then (if i < m.length then some v else none) else Memory.read m j := by
  simp only [Memory.read, Memory.write, List.getElem?_set]
  by_cases h : j = i
  · subst h
    simp
  · simp [h, Ne.symm h]

theorem Memory.wf_iff (c : Config) (m : Memory) :
    Memory.wf c m = true ↔ m.length = c.K ∧ ∀ v ∈ m, fitsSigned c.T v = true := by
  simp [Memory.wf]

theorem Memory.wf_write {c : Config} {m : Memory} {v : Int} (i : Nat) (h : Memory.wf c m = true)
    (hv : fitsSigned c.T v = true) : Memory.wf c (Memory.write m i v) = true := by
  rw [Memory.wf_iff] at h ⊢
  refine ⟨by simpa using h.1, fun x hx => ?_⟩
  rcases List.mem_or_eq_of_mem_set hx with hx | rfl
  · exact h.2 x hx
  · exact hv

/-- A truncated entry is a signed T-bit value (R102). -/
theorem fitsSigned_truncEntry {c : Config} (hT : 1 ≤ c.T) (v : Int) :
    fitsSigned c.T (truncEntry c v) = true := by
  unfold truncEntry
  split
  · exact fitsSigned_wrap hT _
  · exact fitsSigned_wrap hT _

theorem fitsSigned_qmemInitial {c : Config} (hT : 1 ≤ c.T)
    (hInit : ∀ v ∈ c.qmemInit, fitsSigned c.T v = true) (i : Nat) :
    fitsSigned c.T (qmemInitial c i) = true := by
  unfold qmemInitial
  split
  · rename_i v hv
    exact hInit v (List.mem_of_getElem? hv)
  · exact fitsSigned_wrap hT _

/-- QMEM at power-on is in canonical form, for listed values that fit (R252 check 5). -/
theorem Memory.wf_initial {c : Config} (hT : 1 ≤ c.T)
    (hInit : ∀ v ∈ c.qmemInit, fitsSigned c.T v = true) :
    Memory.wf c (Memory.initial c) = true := by
  rw [Memory.wf_iff]
  refine ⟨by simp [Memory.initial], fun v hv => ?_⟩
  obtain ⟨i, -, rfl⟩ := List.mem_map.1 hv
  exact fitsSigned_qmemInitial hT hInit i

/-- The reset state's queue is in canonical form. -/
theorem reset_qmem_wf : Memory.wf State.reset.cfg State.reset.sys.qmem = true :=
  Memory.wf_initial (by decide) (by intro v hv; cases hv)

end Sys2Proof.Machine
end

