-- ==== Sys2Proof/Laws/PerInstr.lean ====
section
/-!
SUPPORT. For every operation: the word the encoder writes for it fits its selector format (R91 to R97), in
every configuration in which the operation exists. One lemma per constructor.
-/

namespace Sys2Proof.Laws.Fits

open Sys2Proof.Machine

/-- The operation's word has no bit above its format. -/
def Statement (i : Instr) : Prop :=
  ∀ c : Config, i.wf c = true → encode c i < 2 ^ i.format.width c

/-- What a state code needs to fit DSEL. -/
theorem dsel_fits {c : Config} {w : Nat} (h : w < 2 ^ c.SW) : w < 2 ^ (Format.dsel.width c) :=
  lt_of_lt_of_le h (Nat.pow_le_pow_right (by norm_num) (Nat.le_succ _))

/-- What a state code and the cs bit need to fit RSEL. -/
theorem rsel_fits {c : Config} {w : Nat} (h : w < 2 * 2 ^ c.SW) : w < 2 ^ (Format.rsel.width c) := by
  have h2 : 2 ^ (c.SW + 2) = 4 * 2 ^ c.SW := by ring
  show w < 2 ^ (c.SW + 2)
  have := Nat.two_pow_pos c.SW
  omega

/-- The code of a bit state fits. -/
theorem bitCode_lt (c : Config) (i : Nat) : bitCode c i < 2 ^ c.SW := by
  have := codes_fit c
  unfold bitCode
  omega

/-- A lead-in code fits. -/
theorem small_lt {c : Config} {w : Nat} (h : w < 4) : w < 2 ^ c.SW := by
  have := codes_fit c
  omega

theorem rsel_code {c : Config} {w : Nat} (h : w < 2 ^ c.SW) : w < 2 ^ (Format.rsel.width c) :=
  rsel_fits (by omega)

theorem unused_lt {c : Config} {w : Nat} (h : unusedCode c w = true) : w < 2 ^ c.SW := by
  simp only [unusedCode, decide_eq_true_eq] at h
  exact h.2

theorem decIdle : Statement .decIdle :=
  fun _ _ => dsel_fits (small_lt (by decide : 0 < 4))

theorem decWait1 : Statement .decWait1 :=
  fun _ _ => dsel_fits (small_lt (by decide : 1 < 4))

theorem decWait2 : Statement .decWait2 :=
  fun _ _ => dsel_fits (small_lt (by decide : 2 < 4))

theorem decNullbit : Statement .decNullbit :=
  fun _ _ => dsel_fits (small_lt (by decide : 3 < 4))

theorem decBit9 : Statement .decBit9 :=
  fun c _ => dsel_fits (bitCode_lt c 9)

theorem decBit8 : Statement .decBit8 :=
  fun c _ => dsel_fits (bitCode_lt c 8)

theorem decBit7 : Statement .decBit7 :=
  fun c _ => dsel_fits (bitCode_lt c 7)

theorem decBit6 : Statement .decBit6 :=
  fun c _ => dsel_fits (bitCode_lt c 6)

theorem decBit5 : Statement .decBit5 :=
  fun c _ => dsel_fits (bitCode_lt c 5)

theorem decBit4 : Statement .decBit4 :=
  fun c _ => dsel_fits (bitCode_lt c 4)

theorem decBit3 : Statement .decBit3 :=
  fun c _ => dsel_fits (bitCode_lt c 3)

theorem decBit2 : Statement .decBit2 :=
  fun c _ => dsel_fits (bitCode_lt c 2)

theorem decBit1 : Statement .decBit1 :=
  fun c _ => dsel_fits (bitCode_lt c 1)

theorem decBit0 : Statement .decBit0 :=
  fun c _ => dsel_fits (bitCode_lt c 0)

theorem decBitN (n : Nat) : Statement (.decBitN n) :=
  fun c _ => dsel_fits (bitCode_lt c n)

theorem unusedDsel14 : Statement .unusedDsel14 :=
  fun _ h => dsel_fits (unused_lt h)

theorem unusedDsel15 : Statement .unusedDsel15 :=
  fun _ h => dsel_fits (unused_lt h)

theorem rspIdleHold : Statement .rspIdleHold :=
  fun c _ => rsel_fits (by have := Nat.two_pow_pos c.SW; show 2 ^ c.SW < _; omega)

theorem rspIdleGo : Statement .rspIdleGo :=
  fun _ _ => rsel_code (small_lt (by decide : 0 < 4))

theorem rspWait1 : Statement .rspWait1 :=
  fun _ _ => rsel_code (small_lt (by decide : 1 < 4))

theorem rspWait2 : Statement .rspWait2 :=
  fun _ _ => rsel_code (small_lt (by decide : 2 < 4))

theorem rspNullbit : Statement .rspNullbit :=
  fun _ _ => rsel_code (small_lt (by decide : 3 < 4))

theorem rspBit9 : Statement .rspBit9 :=
  fun c _ => rsel_code (bitCode_lt c 9)

theorem rspBit8 : Statement .rspBit8 :=
  fun c _ => rsel_code (bitCode_lt c 8)

theorem rspBit7 : Statement .rspBit7 :=
  fun c _ => rsel_code (bitCode_lt c 7)

theorem rspBit6 : Statement .rspBit6 :=
  fun c _ => rsel_code (bitCode_lt c 6)

theorem rspBit5 : Statement .rspBit5 :=
  fun c _ => rsel_code (bitCode_lt c 5)

theorem rspBit4 : Statement .rspBit4 :=
  fun c _ => rsel_code (bitCode_lt c 4)

theorem rspBit3 : Statement .rspBit3 :=
  fun c _ => rsel_code (bitCode_lt c 3)

theorem rspBit2 : Statement .rspBit2 :=
  fun c _ => rsel_code (bitCode_lt c 2)

theorem rspBit1 : Statement .rspBit1 :=
  fun c _ => rsel_code (bitCode_lt c 1)

theorem rspBit0 : Statement .rspBit0 :=
  fun c _ => rsel_code (bitCode_lt c 0)

theorem rspBitN (n : Nat) : Statement (.rspBitN n) :=
  fun c _ => rsel_code (bitCode_lt c n)

theorem rspAbort : Statement .rspAbort :=
  fun c _ => rsel_fits (by have := codes_fit c; show 2 ^ c.SW + 1 < _; omega)

theorem unusedRsel14 : Statement .unusedRsel14 :=
  fun _ h => rsel_code (unused_lt h)

theorem unusedRsel15 : Statement .unusedRsel15 :=
  fun _ h => rsel_code (unused_lt h)

theorem rspCount : Statement .rspCount :=
  fun _ _ => (by decide : 0 < 2 ^ 2)

theorem rspWrap : Statement .rspWrap :=
  fun _ _ => (by decide : 1 < 2 ^ 2)

theorem accHold : Statement .accHold :=
  fun _ _ => (by decide : 0 < 2 ^ 3)

theorem accAdd : Statement .accAdd :=
  fun _ _ => (by decide : 2 < 2 ^ 3)

theorem accEmit : Statement .accEmit :=
  fun _ _ => (by decide : 3 < 2 ^ 3)

theorem qNowrite : Statement .qNowrite :=
  fun _ _ => (by decide : 0 < 2 ^ 3)

theorem qWriteAdv : Statement .qWriteAdv :=
  fun _ _ => (by decide : 2 < 2 ^ 3)

theorem qWriteWrap : Statement .qWriteWrap :=
  fun _ _ => (by decide : 3 < 2 ^ 3)

theorem qRead : Statement .qRead :=
  fun _ _ => (by decide : 0 < 2 ^ 0)

theorem hRdwait : Statement .hRdwait :=
  fun _ _ => (by decide : 0 < 2 ^ 2)

theorem hRdadv : Statement .hRdadv :=
  fun _ _ => (by decide : 1 < 2 ^ 2)

theorem genInit : Statement .genInit :=
  fun _ _ => (by decide : 0 < 2 ^ 0)

theorem genSame : Statement .genSame :=
  fun _ _ => (by decide : 0 < 2 ^ 2)

theorem genNewsym : Statement .genNewsym :=
  fun _ _ => (by decide : 2 < 2 ^ 2)

theorem genFlip : Statement .genFlip :=
  fun _ _ => (by decide : 3 < 2 ^ 2)

theorem genEmit : Statement .genEmit :=
  fun _ _ => (by decide : 0 < 2 ^ 0)

theorem reset : Statement .reset :=
  fun c _ => Nat.pow_lt_pow_right (by norm_num) (Nat.lt_succ_self c.SW)

end Sys2Proof.Laws.Fits
end

