-- ==== Sys2Proof/Laws/State.lean ====
section
/-!
SUPPORT. One lemma per field of State per named update, true by unfolding, so that no later proof unfolds
a record update.
-/

namespace Sys2Proof.Machine

@[simp] theorem setSysNext_cfg (s : State) (r : SysRegs) : (s.setSysNext r).cfg = s.cfg := rfl
@[simp] theorem setSysNext_stage (s : State) (r : SysRegs) : (s.setSysNext r).stage = s.stage := rfl
@[simp] theorem setSysNext_sys (s : State) (r : SysRegs) : (s.setSysNext r).sys = s.sys := rfl
@[simp] theorem setSysNext_sysNext (s : State) (r : SysRegs) : (s.setSysNext r).sysNext = r := rfl
@[simp] theorem setSysNext_adc (s : State) (r : SysRegs) : (s.setSysNext r).adc = s.adc := rfl
@[simp] theorem setSysNext_adcNext (s : State) (r : SysRegs) : (s.setSysNext r).adcNext = s.adcNext := rfl
@[simp] theorem setSysNext_gtab (s : State) (r : SysRegs) : (s.setSysNext r).gtab = s.gtab := rfl
@[simp] theorem setSysNext_genT (s : State) (r : SysRegs) : (s.setSysNext r).genT = s.genT := rfl
@[simp] theorem setSysNext_gen (s : State) (r : SysRegs) : (s.setSysNext r).gen = s.gen := rfl
@[simp] theorem setSysNext_rstIn (s : State) (r : SysRegs) : (s.setSysNext r).rstIn = s.rstIn := rfl
@[simp] theorem setSysNext_rst (s : State) (r : SysRegs) : (s.setSysNext r).rst = s.rst := rfl
@[simp] theorem setSysNext_qOutRead (s : State) (r : SysRegs) : (s.setSysNext r).qOutRead = s.qOutRead := rfl
@[simp] theorem setSysNext_draws (s : State) (r : SysRegs) : (s.setSysNext r).draws = s.draws := rfl
@[simp] theorem setSysNext_tick (s : State) (r : SysRegs) : (s.setSysNext r).tick = s.tick := rfl

@[simp] theorem setAdcNext_cfg (s : State) (r : AdcRegs) : (s.setAdcNext r).cfg = s.cfg := rfl
@[simp] theorem setAdcNext_stage (s : State) (r : AdcRegs) : (s.setAdcNext r).stage = s.stage := rfl
@[simp] theorem setAdcNext_sys (s : State) (r : AdcRegs) : (s.setAdcNext r).sys = s.sys := rfl
@[simp] theorem setAdcNext_sysNext (s : State) (r : AdcRegs) : (s.setAdcNext r).sysNext = s.sysNext := rfl
@[simp] theorem setAdcNext_adc (s : State) (r : AdcRegs) : (s.setAdcNext r).adc = s.adc := rfl
@[simp] theorem setAdcNext_adcNext (s : State) (r : AdcRegs) : (s.setAdcNext r).adcNext = r := rfl
@[simp] theorem setAdcNext_gtab (s : State) (r : AdcRegs) : (s.setAdcNext r).gtab = s.gtab := rfl
@[simp] theorem setAdcNext_genT (s : State) (r : AdcRegs) : (s.setAdcNext r).genT = s.genT := rfl
@[simp] theorem setAdcNext_gen (s : State) (r : AdcRegs) : (s.setAdcNext r).gen = s.gen := rfl
@[simp] theorem setAdcNext_rstIn (s : State) (r : AdcRegs) : (s.setAdcNext r).rstIn = s.rstIn := rfl
@[simp] theorem setAdcNext_rst (s : State) (r : AdcRegs) : (s.setAdcNext r).rst = s.rst := rfl
@[simp] theorem setAdcNext_qOutRead (s : State) (r : AdcRegs) : (s.setAdcNext r).qOutRead = s.qOutRead := rfl
@[simp] theorem setAdcNext_draws (s : State) (r : AdcRegs) : (s.setAdcNext r).draws = s.draws := rfl
@[simp] theorem setAdcNext_tick (s : State) (r : AdcRegs) : (s.setAdcNext r).tick = s.tick := rfl

@[simp] theorem commitSys_cfg (s : State) : s.commitSys.cfg = s.cfg := rfl
@[simp] theorem commitSys_stage (s : State) : s.commitSys.stage = s.stage := rfl
@[simp] theorem commitSys_sys (s : State) : s.commitSys.sys = s.sysNext := rfl
@[simp] theorem commitSys_sysNext (s : State) : s.commitSys.sysNext = s.sysNext := rfl
@[simp] theorem commitSys_adc (s : State) : s.commitSys.adc = s.adc := rfl
@[simp] theorem commitSys_adcNext (s : State) : s.commitSys.adcNext = s.adcNext := rfl
@[simp] theorem commitSys_gtab (s : State) : s.commitSys.gtab = s.gtab := rfl
@[simp] theorem commitSys_genT (s : State) : s.commitSys.genT = s.genT := rfl
@[simp] theorem commitSys_gen (s : State) : s.commitSys.gen = s.gen := rfl
@[simp] theorem commitSys_rstIn (s : State) : s.commitSys.rstIn = s.rstIn := rfl
@[simp] theorem commitSys_rst (s : State) : s.commitSys.rst = s.rst := rfl
@[simp] theorem commitSys_qOutRead (s : State) : s.commitSys.qOutRead = s.qOutRead := rfl
@[simp] theorem commitSys_draws (s : State) : s.commitSys.draws = s.draws := rfl
@[simp] theorem commitSys_tick (s : State) : s.commitSys.tick = s.tick := rfl

@[simp] theorem commitAdc_cfg (s : State) : s.commitAdc.cfg = s.cfg := rfl
@[simp] theorem commitAdc_stage (s : State) : s.commitAdc.stage = s.stage := rfl
@[simp] theorem commitAdc_sys (s : State) : s.commitAdc.sys = s.sys := rfl
@[simp] theorem commitAdc_sysNext (s : State) : s.commitAdc.sysNext = s.sysNext := rfl
@[simp] theorem commitAdc_adc (s : State) : s.commitAdc.adc = s.adcNext := rfl
@[simp] theorem commitAdc_adcNext (s : State) : s.commitAdc.adcNext = s.adcNext := rfl
@[simp] theorem commitAdc_gtab (s : State) : s.commitAdc.gtab = s.gtab := rfl
@[simp] theorem commitAdc_genT (s : State) : s.commitAdc.genT = s.genT := rfl
@[simp] theorem commitAdc_gen (s : State) : s.commitAdc.gen = s.gen := rfl
@[simp] theorem commitAdc_rstIn (s : State) : s.commitAdc.rstIn = s.rstIn := rfl
@[simp] theorem commitAdc_rst (s : State) : s.commitAdc.rst = s.rst := rfl
@[simp] theorem commitAdc_qOutRead (s : State) : s.commitAdc.qOutRead = s.qOutRead := rfl
@[simp] theorem commitAdc_draws (s : State) : s.commitAdc.draws = s.draws := rfl
@[simp] theorem commitAdc_tick (s : State) : s.commitAdc.tick = s.tick := rfl

@[simp] theorem beginTick_cfg (s : State) : s.beginTick.cfg = s.cfg := rfl
@[simp] theorem beginTick_stage (s : State) : s.beginTick.stage = s.stage := rfl
@[simp] theorem beginTick_sys (s : State) : s.beginTick.sys = s.sys := rfl
@[simp] theorem beginTick_sysNext (s : State) : s.beginTick.sysNext = s.sys := rfl
@[simp] theorem beginTick_adc (s : State) : s.beginTick.adc = s.adc := rfl
@[simp] theorem beginTick_adcNext (s : State) : s.beginTick.adcNext = s.adc := rfl
@[simp] theorem beginTick_gtab (s : State) : s.beginTick.gtab = s.gtab := rfl
@[simp] theorem beginTick_genT (s : State) : s.beginTick.genT = s.genT := rfl
@[simp] theorem beginTick_gen (s : State) : s.beginTick.gen = s.gen := rfl
@[simp] theorem beginTick_rstIn (s : State) : s.beginTick.rstIn = s.rstIn.tail := rfl
@[simp] theorem beginTick_rst (s : State) : s.beginTick.rst = s.rstIn.headD false := rfl
@[simp] theorem beginTick_qOutRead (s : State) : s.beginTick.qOutRead = s.qOutRead := rfl
@[simp] theorem beginTick_draws (s : State) : s.beginTick.draws = s.draws := rfl
@[simp] theorem beginTick_tick (s : State) : s.beginTick.tick = s.tick + 1 := rfl

@[simp] theorem setRead_cfg (s : State) (v : Int) (n : Nat) : (s.setRead v n).cfg = s.cfg := rfl
@[simp] theorem setRead_stage (s : State) (v : Int) (n : Nat) : (s.setRead v n).stage = s.stage := rfl
@[simp] theorem setRead_sys (s : State) (v : Int) (n : Nat) : (s.setRead v n).sys = s.sys := rfl
@[simp] theorem setRead_sysNext (s : State) (v : Int) (n : Nat) : (s.setRead v n).sysNext = s.sysNext := rfl
@[simp] theorem setRead_adc (s : State) (v : Int) (n : Nat) : (s.setRead v n).adc = s.adc := rfl
@[simp] theorem setRead_adcNext (s : State) (v : Int) (n : Nat) : (s.setRead v n).adcNext = s.adcNext := rfl
@[simp] theorem setRead_gtab (s : State) (v : Int) (n : Nat) : (s.setRead v n).gtab = s.gtab := rfl
@[simp] theorem setRead_genT (s : State) (v : Int) (n : Nat) : (s.setRead v n).genT = s.genT := rfl
@[simp] theorem setRead_gen (s : State) (v : Int) (n : Nat) : (s.setRead v n).gen = s.gen := rfl
@[simp] theorem setRead_rstIn (s : State) (v : Int) (n : Nat) : (s.setRead v n).rstIn = s.rstIn := rfl
@[simp] theorem setRead_rst (s : State) (v : Int) (n : Nat) : (s.setRead v n).rst = s.rst := rfl
@[simp] theorem setRead_qOutRead (s : State) (v : Int) (n : Nat) : (s.setRead v n).qOutRead = v := rfl
@[simp] theorem setRead_draws (s : State) (v : Int) (n : Nat) : (s.setRead v n).draws = n := rfl
@[simp] theorem setRead_tick (s : State) (v : Int) (n : Nat) : (s.setRead v n).tick = s.tick := rfl

@[simp] theorem setGen_cfg (s : State) (v : GenVars) : (s.setGen v).cfg = s.cfg := rfl
@[simp] theorem setGen_stage (s : State) (v : GenVars) : (s.setGen v).stage = s.stage := rfl
@[simp] theorem setGen_sys (s : State) (v : GenVars) : (s.setGen v).sys = s.sys := rfl
@[simp] theorem setGen_sysNext (s : State) (v : GenVars) : (s.setGen v).sysNext = s.sysNext := rfl
@[simp] theorem setGen_adc (s : State) (v : GenVars) : (s.setGen v).adc = s.adc := rfl
@[simp] theorem setGen_adcNext (s : State) (v : GenVars) : (s.setGen v).adcNext = s.adcNext := rfl
@[simp] theorem setGen_gtab (s : State) (v : GenVars) : (s.setGen v).gtab = s.gtab := rfl
@[simp] theorem setGen_genT (s : State) (v : GenVars) : (s.setGen v).genT = s.genT := rfl
@[simp] theorem setGen_gen (s : State) (v : GenVars) : (s.setGen v).gen = v := rfl
@[simp] theorem setGen_rstIn (s : State) (v : GenVars) : (s.setGen v).rstIn = s.rstIn := rfl
@[simp] theorem setGen_rst (s : State) (v : GenVars) : (s.setGen v).rst = s.rst := rfl
@[simp] theorem setGen_qOutRead (s : State) (v : GenVars) : (s.setGen v).qOutRead = s.qOutRead := rfl
@[simp] theorem setGen_draws (s : State) (v : GenVars) : (s.setGen v).draws = s.draws := rfl
@[simp] theorem setGen_tick (s : State) (v : GenVars) : (s.setGen v).tick = s.tick := rfl

@[simp] theorem setTable_cfg (s : State) (l : List (Bool × Int)) : (s.setTable l).cfg = s.cfg := rfl
@[simp] theorem setTable_stage (s : State) (l : List (Bool × Int)) : (s.setTable l).stage = s.stage := rfl
@[simp] theorem setTable_sys (s : State) (l : List (Bool × Int)) : (s.setTable l).sys = s.sys := rfl
@[simp] theorem setTable_sysNext (s : State) (l : List (Bool × Int)) : (s.setTable l).sysNext = s.sysNext := rfl
@[simp] theorem setTable_adc (s : State) (l : List (Bool × Int)) : (s.setTable l).adc = s.adc := rfl
@[simp] theorem setTable_adcNext (s : State) (l : List (Bool × Int)) : (s.setTable l).adcNext = s.adcNext := rfl
@[simp] theorem setTable_gtab (s : State) (l : List (Bool × Int)) : (s.setTable l).gtab = l := rfl
@[simp] theorem setTable_genT (s : State) (l : List (Bool × Int)) : (s.setTable l).genT = s.genT := rfl
@[simp] theorem setTable_gen (s : State) (l : List (Bool × Int)) : (s.setTable l).gen = s.gen := rfl
@[simp] theorem setTable_rstIn (s : State) (l : List (Bool × Int)) : (s.setTable l).rstIn = s.rstIn := rfl
@[simp] theorem setTable_rst (s : State) (l : List (Bool × Int)) : (s.setTable l).rst = s.rst := rfl
@[simp] theorem setTable_qOutRead (s : State) (l : List (Bool × Int)) : (s.setTable l).qOutRead = s.qOutRead := rfl
@[simp] theorem setTable_draws (s : State) (l : List (Bool × Int)) : (s.setTable l).draws = s.draws := rfl
@[simp] theorem setTable_tick (s : State) (l : List (Bool × Int)) : (s.setTable l).tick = s.tick := rfl

@[simp] theorem setGenT_cfg (s : State) (n : Nat) : (s.setGenT n).cfg = s.cfg := rfl
@[simp] theorem setGenT_stage (s : State) (n : Nat) : (s.setGenT n).stage = s.stage := rfl
@[simp] theorem setGenT_sys (s : State) (n : Nat) : (s.setGenT n).sys = s.sys := rfl
@[simp] theorem setGenT_sysNext (s : State) (n : Nat) : (s.setGenT n).sysNext = s.sysNext := rfl
@[simp] theorem setGenT_adc (s : State) (n : Nat) : (s.setGenT n).adc = s.adc := rfl
@[simp] theorem setGenT_adcNext (s : State) (n : Nat) : (s.setGenT n).adcNext = s.adcNext := rfl
@[simp] theorem setGenT_gtab (s : State) (n : Nat) : (s.setGenT n).gtab = s.gtab := rfl
@[simp] theorem setGenT_genT (s : State) (n : Nat) : (s.setGenT n).genT = n := rfl
@[simp] theorem setGenT_gen (s : State) (n : Nat) : (s.setGenT n).gen = s.gen := rfl
@[simp] theorem setGenT_rstIn (s : State) (n : Nat) : (s.setGenT n).rstIn = s.rstIn := rfl
@[simp] theorem setGenT_rst (s : State) (n : Nat) : (s.setGenT n).rst = s.rst := rfl
@[simp] theorem setGenT_qOutRead (s : State) (n : Nat) : (s.setGenT n).qOutRead = s.qOutRead := rfl
@[simp] theorem setGenT_draws (s : State) (n : Nat) : (s.setGenT n).draws = s.draws := rfl
@[simp] theorem setGenT_tick (s : State) (n : Nat) : (s.setGenT n).tick = s.tick := rfl

@[simp] theorem setStage_cfg (s : State) (g : Stage) : (s.setStage g).cfg = s.cfg := rfl
@[simp] theorem setStage_stage (s : State) (g : Stage) : (s.setStage g).stage = g := rfl
@[simp] theorem setStage_sys (s : State) (g : Stage) : (s.setStage g).sys = s.sys := rfl
@[simp] theorem setStage_sysNext (s : State) (g : Stage) : (s.setStage g).sysNext = s.sysNext := rfl
@[simp] theorem setStage_adc (s : State) (g : Stage) : (s.setStage g).adc = s.adc := rfl
@[simp] theorem setStage_adcNext (s : State) (g : Stage) : (s.setStage g).adcNext = s.adcNext := rfl
@[simp] theorem setStage_gtab (s : State) (g : Stage) : (s.setStage g).gtab = s.gtab := rfl
@[simp] theorem setStage_genT (s : State) (g : Stage) : (s.setStage g).genT = s.genT := rfl
@[simp] theorem setStage_gen (s : State) (g : Stage) : (s.setStage g).gen = s.gen := rfl
@[simp] theorem setStage_rstIn (s : State) (g : Stage) : (s.setStage g).rstIn = s.rstIn := rfl
@[simp] theorem setStage_rst (s : State) (g : Stage) : (s.setStage g).rst = s.rst := rfl
@[simp] theorem setStage_qOutRead (s : State) (g : Stage) : (s.setStage g).qOutRead = s.qOutRead := rfl
@[simp] theorem setStage_draws (s : State) (g : Stage) : (s.setStage g).draws = s.draws := rfl
@[simp] theorem setStage_tick (s : State) (g : Stage) : (s.setStage g).tick = s.tick := rfl

@[simp] theorem resetNext_cfg (s : State) : s.resetNext.cfg = s.cfg := rfl
@[simp] theorem resetNext_stage (s : State) : s.resetNext.stage = s.stage := rfl
@[simp] theorem resetNext_sys (s : State) : s.resetNext.sys = s.sys := rfl
@[simp] theorem resetNext_sysNext (s : State) : s.resetNext.sysNext = SysRegs.reset s.sys.qmem := rfl
@[simp] theorem resetNext_adc (s : State) : s.resetNext.adc = s.adc := rfl
@[simp] theorem resetNext_adcNext (s : State) : s.resetNext.adcNext = AdcRegs.reset := rfl
@[simp] theorem resetNext_gtab (s : State) : s.resetNext.gtab = s.gtab := rfl
@[simp] theorem resetNext_genT (s : State) : s.resetNext.genT = s.genT := rfl
@[simp] theorem resetNext_gen (s : State) : s.resetNext.gen = s.gen := rfl
@[simp] theorem resetNext_rstIn (s : State) : s.resetNext.rstIn = s.rstIn := rfl
@[simp] theorem resetNext_rst (s : State) : s.resetNext.rst = s.rst := rfl
@[simp] theorem resetNext_qOutRead (s : State) : s.resetNext.qOutRead = s.qOutRead := rfl
@[simp] theorem resetNext_draws (s : State) : s.resetNext.draws = s.draws := rfl
@[simp] theorem resetNext_tick (s : State) : s.resetNext.tick = s.tick := rfl

@[simp] theorem setCfg_cfg (s : State) (c : Config) : (s.setCfg c).cfg = c := rfl
@[simp] theorem setCfg_stage (s : State) (c : Config) : (s.setCfg c).stage = s.stage := rfl
@[simp] theorem setCfg_sys (s : State) (c : Config) : (s.setCfg c).sys = s.sys := rfl
@[simp] theorem setCfg_sysNext (s : State) (c : Config) : (s.setCfg c).sysNext = s.sysNext := rfl
@[simp] theorem setCfg_adc (s : State) (c : Config) : (s.setCfg c).adc = s.adc := rfl
@[simp] theorem setCfg_adcNext (s : State) (c : Config) : (s.setCfg c).adcNext = s.adcNext := rfl
@[simp] theorem setCfg_gtab (s : State) (c : Config) : (s.setCfg c).gtab = s.gtab := rfl
@[simp] theorem setCfg_genT (s : State) (c : Config) : (s.setCfg c).genT = s.genT := rfl
@[simp] theorem setCfg_gen (s : State) (c : Config) : (s.setCfg c).gen = s.gen := rfl
@[simp] theorem setCfg_rstIn (s : State) (c : Config) : (s.setCfg c).rstIn = s.rstIn := rfl
@[simp] theorem setCfg_rst (s : State) (c : Config) : (s.setCfg c).rst = s.rst := rfl
@[simp] theorem setCfg_qOutRead (s : State) (c : Config) : (s.setCfg c).qOutRead = s.qOutRead := rfl
@[simp] theorem setCfg_draws (s : State) (c : Config) : (s.setCfg c).draws = s.draws := rfl
@[simp] theorem setCfg_tick (s : State) (c : Config) : (s.setCfg c).tick = s.tick := rfl

@[simp] theorem withInputs_cfg (s : State) (l : List Bool) : (s.withInputs l).cfg = s.cfg := rfl
@[simp] theorem withInputs_stage (s : State) (l : List Bool) : (s.withInputs l).stage = s.stage := rfl
@[simp] theorem withInputs_sys (s : State) (l : List Bool) : (s.withInputs l).sys = s.sys := rfl
@[simp] theorem withInputs_sysNext (s : State) (l : List Bool) : (s.withInputs l).sysNext = s.sysNext := rfl
@[simp] theorem withInputs_adc (s : State) (l : List Bool) : (s.withInputs l).adc = s.adc := rfl
@[simp] theorem withInputs_adcNext (s : State) (l : List Bool) : (s.withInputs l).adcNext = s.adcNext := rfl
@[simp] theorem withInputs_gtab (s : State) (l : List Bool) : (s.withInputs l).gtab = s.gtab := rfl
@[simp] theorem withInputs_genT (s : State) (l : List Bool) : (s.withInputs l).genT = s.genT := rfl
@[simp] theorem withInputs_gen (s : State) (l : List Bool) : (s.withInputs l).gen = s.gen := rfl
@[simp] theorem withInputs_rstIn (s : State) (l : List Bool) : (s.withInputs l).rstIn = l := rfl
@[simp] theorem withInputs_rst (s : State) (l : List Bool) : (s.withInputs l).rst = s.rst := rfl
@[simp] theorem withInputs_qOutRead (s : State) (l : List Bool) : (s.withInputs l).qOutRead = s.qOutRead := rfl
@[simp] theorem withInputs_draws (s : State) (l : List Bool) : (s.withInputs l).draws = s.draws := rfl
@[simp] theorem withInputs_tick (s : State) (l : List Bool) : (s.withInputs l).tick = s.tick := rfl

@[simp] theorem withTick_cfg (s : State) (b : Bool) : (s.withTick b).cfg = s.cfg := rfl
@[simp] theorem withTick_stage (s : State) (b : Bool) : (s.withTick b).stage = .run := rfl
@[simp] theorem withTick_sys (s : State) (b : Bool) : (s.withTick b).sys = s.sys := rfl
@[simp] theorem withTick_sysNext (s : State) (b : Bool) : (s.withTick b).sysNext = s.sysNext := rfl
@[simp] theorem withTick_adc (s : State) (b : Bool) : (s.withTick b).adc = s.adc := rfl
@[simp] theorem withTick_adcNext (s : State) (b : Bool) : (s.withTick b).adcNext = s.adcNext := rfl
@[simp] theorem withTick_gtab (s : State) (b : Bool) : (s.withTick b).gtab = s.gtab := rfl
@[simp] theorem withTick_genT (s : State) (b : Bool) : (s.withTick b).genT = s.genT := rfl
@[simp] theorem withTick_gen (s : State) (b : Bool) : (s.withTick b).gen = s.gen := rfl
@[simp] theorem withTick_rstIn (s : State) (b : Bool) : (s.withTick b).rstIn = b :: s.rstIn := rfl
@[simp] theorem withTick_rst (s : State) (b : Bool) : (s.withTick b).rst = s.rst := rfl
@[simp] theorem withTick_qOutRead (s : State) (b : Bool) : (s.withTick b).qOutRead = s.qOutRead := rfl
@[simp] theorem withTick_draws (s : State) (b : Bool) : (s.withTick b).draws = s.draws := rfl
@[simp] theorem withTick_tick (s : State) (b : Bool) : (s.withTick b).tick = s.tick := rfl

end Sys2Proof.Machine
end

