-- ==== Sys2Proof/Laws/Select.lean ====
section
/-!
SUPPORT. What each component performs, read off its registers: the selector words of R90 to R97 taken
through the decoder once, so that no later proof opens either.
-/

namespace Sys2Proof.Machine

/-! ### Composing outcomes -/

@[simp] theorem andThen_next (s : State) (f : State → Result) : andThen (.next s) f = f s := rfl
@[simp] theorem andThen_fault (r : Fault) (f : State → Result) : andThen (.fault r) f = .fault r := rfl
@[simp] theorem andThen_refused (r : Refusal) (f : State → Result) :
    andThen (.refused r) f = .refused r := rfl

/-- A composition reaches a next state exactly through one of its first part. -/
theorem andThen_eq_next {o : Result} {f : State → Result} {t : State} :
    andThen o f = .next t ↔ ∃ s, o = .next s ∧ f s = .next t := by
  cases o <;> simp

/-! ### The bit rows -/

theorem exec_decBitInstr {i : Nat} (h : 1 ≤ i) (s : State) : exec (decBitInstr i) s = decBitOp i s := by
  match i, h with
  | 1, _ | 2, _ | 3, _ | 4, _ | 5, _ | 6, _ | 7, _ | 8, _ | 9, _ => rfl
  | _ + 10, _ => rfl

theorem exec_rspBitInstr {i : Nat} (h : 1 ≤ i) (s : State) : exec (rspBitInstr i) s = rspBitOp i s := by
  match i, h with
  | 1, _ | 2, _ | 3, _ | 4, _ | 5, _ | 6, _ | 7, _ | 8, _ | 9, _ => rfl
  | _ + 10, _ => rfl

/-! ### DSEL -/

theorem selector_dsel_parts (s : State) :
    selector .dsel s < 2 ^ (s.cfg.SW + 1) ∧ selector .dsel s / 2 ^ s.cfg.SW = bitNat s.rst ∧
      selector .dsel s % 2 ^ s.cfg.SW = s.sys.decState % 2 ^ s.cfg.SW := by
  have hp := Nat.two_pow_pos s.cfg.SW
  have hm := Nat.mod_lt s.sys.decState hp
  have hb := bitNat_le s.rst
  have hs : 2 ^ (s.cfg.SW + 1) = 2 * 2 ^ s.cfg.SW := Nat.pow_succ'
  have hw : selector .dsel s = bitNat s.rst * 2 ^ s.cfg.SW + s.sys.decState % 2 ^ s.cfg.SW := rfl
  refine ⟨?_, ?_, ?_⟩
  · rw [hw, hs]
    nlinarith
  · rw [hw, Nat.add_comm, Nat.add_mul_div_right _ _ hp, Nat.div_eq_of_lt hm, Nat.zero_add]
  · rw [hw, Nat.add_comm, Nat.add_mul_mod_self_right, Nat.mod_mod]

/-- The Decoder's operation (R90, R91, R98, R104). -/
theorem perform_dsel (s : State) :
    perform .dsel s =
      if s.rst then execReset s
      else
        match decodeDecState s.cfg (s.sys.decState % 2 ^ s.cfg.SW) with
        | .ok i => exec i s
        | .error e => rejected e := by
  obtain ⟨h1, h2, h3⟩ := selector_dsel_parts s
  have hw : ¬ 2 ^ (Format.width s.cfg .dsel) ≤ selector .dsel s := by
    simpa [Format.width] using h1
  cases hr : s.rst with
  | true =>
    have h2' : selector .dsel s / 2 ^ s.cfg.SW = 1 := by simpa [hr] using h2
    simp only [perform, decode, if_neg hw, if_pos h2', if_true]
    rfl
  | false =>
    have h2' : selector .dsel s / 2 ^ s.cfg.SW = 0 := by simpa [hr] using h2
    have hlt : selector .dsel s < 2 ^ s.cfg.SW := by
      rcases Nat.div_eq_zero_iff.1 h2' with h | h
      · exact absurd h (Nat.two_pow_pos _).ne'
      · exact h
    rw [Nat.mod_eq_of_lt hlt] at h3
    have h1' : ¬ selector .dsel s / 2 ^ s.cfg.SW = 1 := by omega
    simp only [perform, decode, if_neg hw, if_neg h1']
    rw [h3]
    rfl

/-- With a used state code (R91). -/
theorem perform_dsel_used {s : State} (hr : s.rst = false) (hc : s.sys.decState ≤ s.cfg.N + 3) :
    perform .dsel s =
      if s.sys.decState = idleCode then execDecIdle s
      else if s.sys.decState = wait1Code then execDecWait1 s
      else if s.sys.decState = wait2Code then execDecWait2 s
      else if s.sys.decState = nullbitCode then execDecNullbit s
      else if s.sys.decState = s.cfg.N + 3 then execDecBit0 s
      else decBitOp (s.cfg.N + 3 - s.sys.decState) s := by
  have hm : s.sys.decState % 2 ^ s.cfg.SW = s.sys.decState :=
    Nat.mod_eq_of_lt (lt_of_lt_of_le (Nat.lt_succ_of_le hc) (codes_fit s.cfg))
  rw [perform_dsel, hr, hm, if_neg (by simp), decodeDecState]
  by_cases h0 : s.sys.decState = idleCode
  · simp only [if_pos h0]; rfl
  by_cases h1 : s.sys.decState = wait1Code
  · simp only [if_neg h0, if_pos h1]; rfl
  by_cases h2 : s.sys.decState = wait2Code
  · simp only [if_neg h0, if_neg h1, if_pos h2]; rfl
  by_cases h3 : s.sys.decState = nullbitCode
  · simp only [if_neg h0, if_neg h1, if_neg h2, if_pos h3]; rfl
  simp only [if_neg h0, if_neg h1, if_neg h2, if_neg h3, if_pos hc]
  by_cases h4 : s.sys.decState = s.cfg.N + 3
  · simp only [h4, Nat.sub_self]; rfl
  · rw [if_neg h4]
    exact exec_decBitInstr (by omega) s

/-- With an unused state code: MF2 (R104, R256). -/
theorem perform_dsel_unused {s : State} (hr : s.rst = false)
    (hc : s.cfg.N + 4 ≤ s.sys.decState) (hw : s.sys.decState < 2 ^ s.cfg.SW) :
    perform .dsel s = .fault (.mf2UnreachableState .decoder s.sys.decState) := by
  rw [perform_dsel, hr, if_neg (by simp), Nat.mod_eq_of_lt hw, decodeDecState, if_neg, if_neg, if_neg,
    if_neg, if_neg (by omega)]
  · by_cases h14 : s.sys.decState = 14
    · rw [if_pos h14, h14]; rfl
    · rw [if_neg h14]
      by_cases h15 : s.sys.decState = 15
      · rw [if_pos h15, h15]; rfl
      · rw [if_neg h15]; rfl
  all_goals simp only [idleCode, wait1Code, wait2Code, nullbitCode]; omega

/-! ### RSEL -/

theorem selector_rsel_parts (s : State) :
    selector .rsel s < 2 ^ (s.cfg.SW + 2) ∧
      selector .rsel s / 2 ^ (s.cfg.SW + 1) = bitNat s.rst ∧
      selector .rsel s / 2 ^ s.cfg.SW = 2 * bitNat s.rst + bitNat s.cs ∧
      selector .rsel s % 2 ^ s.cfg.SW = s.adc.rspState % 2 ^ s.cfg.SW := by
  have hp := Nat.two_pow_pos s.cfg.SW
  have hm := Nat.mod_lt s.adc.rspState hp
  have hb := bitNat_le s.rst
  have hc := bitNat_le s.cs
  have hs : 2 ^ (s.cfg.SW + 1) = 2 * 2 ^ s.cfg.SW := Nat.pow_succ'
  have hs2 : 2 ^ (s.cfg.SW + 2) = 4 * 2 ^ s.cfg.SW := by rw [Nat.pow_succ, hs]; ring
  have hw : selector .rsel s =
      s.adc.rspState % 2 ^ s.cfg.SW + (2 * bitNat s.rst + bitNat s.cs) * 2 ^ s.cfg.SW := by
    show _ * 2 ^ (s.cfg.SW + 1) + _ + _ = _
    rw [hs]
    ring
  have hd : selector .rsel s / 2 ^ s.cfg.SW = 2 * bitNat s.rst + bitNat s.cs := by
    rw [hw, Nat.add_mul_div_right _ _ hp, Nat.div_eq_of_lt hm, Nat.zero_add]
  refine ⟨?_, ?_, hd, ?_⟩
  · rw [hw, hs2]
    nlinarith
  · rw [Nat.pow_succ, ← Nat.div_div_eq_div_mul, hd]
    omega
  · rw [hw, Nat.add_mul_mod_self_right, Nat.mod_mod]

/-- The Responder FSM's operation (R90, R92, R98, R104, R142). -/
theorem perform_rsel (s : State) :
    perform .rsel s =
      if s.rst then execReset s
      else
        match decodeRspState s.cfg s.cs (s.adc.rspState % 2 ^ s.cfg.SW) with
        | .ok i => exec i s
        | .error e => rejected e := by
  obtain ⟨h1, h2, h3, h4⟩ := selector_rsel_parts s
  have hw : ¬ 2 ^ (Format.width s.cfg .rsel) ≤ selector .rsel s := by
    simpa [Format.width] using h1
  cases hr : s.rst with
  | true =>
    have h2' : selector .rsel s / 2 ^ (s.cfg.SW + 1) = 1 := by simpa [hr] using h2
    simp only [perform, decode, if_neg hw, if_pos h2', if_true]
    rfl
  | false =>
    have h2' : selector .rsel s / 2 ^ (s.cfg.SW + 1) ≠ 1 := by rw [h2, hr]; simp
    have hcs : decide (selector .rsel s / 2 ^ s.cfg.SW = 1) = s.cs := by
      rw [h3, hr]
      cases s.cs <;> rfl
    simp only [perform, decode, if_neg hw, if_neg h2', hcs, h4]
    rfl

/-- With a used state code (R92, R142). -/
theorem perform_rsel_used {s : State} (hr : s.rst = false) (hc : s.adc.rspState ≤ s.cfg.N + 3) :
    perform .rsel s =
      if s.adc.rspState = idleCode then (if s.cs then execRspIdleHold s else execRspIdleGo s)
      else if s.cfg.rspAbort && s.cs then execRspAbort s
      else if s.adc.rspState = wait1Code then execRspWait1 s
      else if s.adc.rspState = wait2Code then execRspWait2 s
      else if s.adc.rspState = nullbitCode then execRspNullbit s
      else if s.adc.rspState = s.cfg.N + 3 then execRspBit0 s
      else rspBitOp (s.cfg.N + 3 - s.adc.rspState) s := by
  have hm : s.adc.rspState % 2 ^ s.cfg.SW = s.adc.rspState :=
    Nat.mod_eq_of_lt (lt_of_lt_of_le (Nat.lt_succ_of_le hc) (codes_fit s.cfg))
  rw [perform_rsel, hr, hm, if_neg (by simp), decodeRspState]
  by_cases h0 : s.adc.rspState = idleCode
  · simp only [if_pos h0]
    cases s.cs <;> rfl
  simp only [if_neg h0, if_pos hc]
  by_cases ha : (s.cfg.rspAbort && s.cs) = true
  · simp only [if_pos ha]; rfl
  simp only [if_neg ha]
  by_cases h1 : s.adc.rspState = wait1Code
  · simp only [if_pos h1]; rfl
  by_cases h2 : s.adc.rspState = wait2Code
  · simp only [if_neg h1, if_pos h2]; rfl
  by_cases h3 : s.adc.rspState = nullbitCode
  · simp only [if_neg h1, if_neg h2, if_pos h3]; rfl
  simp only [if_neg h1, if_neg h2, if_neg h3]
  by_cases h4 : s.adc.rspState = s.cfg.N + 3
  · simp only [h4, Nat.sub_self]; rfl
  · rw [if_neg h4]
    exact exec_rspBitInstr (by omega) s

/-- With an unused state code: MF2 (R104, R256). -/
theorem perform_rsel_unused {s : State} (hr : s.rst = false)
    (hc : s.cfg.N + 4 ≤ s.adc.rspState) (hw : s.adc.rspState < 2 ^ s.cfg.SW) :
    perform .rsel s = .fault (.mf2UnreachableState .responder s.adc.rspState) := by
  rw [perform_rsel, hr, if_neg (by simp), Nat.mod_eq_of_lt hw, decodeRspState, if_neg,
    if_neg (by omega)]
  · by_cases h14 : s.adc.rspState = 14
    · rw [if_pos h14, h14]; rfl
    · rw [if_neg h14]
      by_cases h15 : s.adc.rspState = 15
      · rw [if_pos h15, h15]; rfl
      · rw [if_neg h15]; rfl
  · simp only [idleCode]; omega

/-! ### The formats of fixed width -/

/-- The Responder counter's operation (R93, R98). -/
theorem perform_csel (s : State) :
    perform .csel s =
      if s.rst then execReset s else if s.atC then execRspWrap s else execRspCount s := by
  cases hr : s.rst <;> cases ha : s.atC <;>
    simp [perform, selector, decode, Format.width, decodeCsel, hr, ha, exec]

/-- The Accumulator's operation (R94, R98, R190). -/
theorem perform_asel (s : State) :
    perform .asel s =
      if s.rst then execReset s
      else if s.sys.decValid then (if s.atLim then execAccEmit s else execAccAdd s)
      else execAccHold s := by
  cases hr : s.rst <;> cases hv : s.sys.decValid <;> cases ha : s.atLim <;>
    simp [perform, selector, decode, Format.width, decodeAsel, hr, hv, ha, exec]

/-- The Queue write side's operation (R95, R98, R210). -/
theorem perform_qsel (s : State) :
    perform .qsel s =
      if s.rst then execReset s
      else if s.sys.accValid then (if s.wrLast then execQWriteWrap s else execQWriteAdv s)
      else execQNowrite s := by
  cases hr : s.rst <;> cases hv : s.sys.accValid <;> cases ha : s.wrLast <;>
    simp [perform, selector, decode, Format.width, decodeQsel, hr, hv, ha, exec]

/-- The read cursor's operation (R96, R98). -/
theorem perform_hsel (s : State) :
    perform .hsel s =
      if s.rst then execReset s else if s.rdDue then execHRdadv s else execHRdwait s := by
  cases hr : s.rst <;> cases ha : s.rdDue <;>
    simp [perform, selector, decode, Format.width, decodeHsel, hr, ha, exec]

/-- The Generator's operation (R97, R98); `flip` implies `new_sym`. -/
theorem perform_gsel (s : State) :
    perform .gsel s =
      if s.newSym then (if s.flip then execGenFlip s else execGenNewsym s) else execGenSame s := by
  cases hn : s.newSym
  · have hf : s.flip = false := by simp [State.flip, hn]
    simp [perform, selector, decode, Format.width, decodeGsel, hn, hf, exec]
  · cases hf : s.flip <;>
      simp [perform, selector, decode, Format.width, decodeGsel, hn, hf, exec]

@[simp] theorem perform_qRead (s : State) : perform (.fixed .qRead) s = execQRead s := rfl
@[simp] theorem perform_genInit (s : State) : perform (.fixed .genInit) s = execGenInit s := rfl
@[simp] theorem perform_genEmit (s : State) : perform (.fixed .genEmit) s = execGenEmit s := rfl

end Sys2Proof.Machine
end

