-- ==== Sys2Proof/Laws/Tick.lean ====
section
/-!
SUPPORT. What one tick does (R230), said once: each component as a function on pending registers, the two
edges as the composition of those functions, the reset tick, and what every tick leaves alone.
-/

namespace Sys2Proof.Machine

/-! ### Each component of the `sys` domain as a function on the pending registers -/

/-- The Decoder's writes with a used state code (R160 to R165). -/
def decUpd (s : State) (r : SysRegs) : SysRegs :=
  if s.sys.decState = idleCode then
    { r with decCs := false, decValid := false, decState := wait1Code }
  else if s.sys.decState = wait1Code then { r with decState := wait2Code }
  else if s.sys.decState = wait2Code then { r with decState := nullbitCode }
  else if s.sys.decState = nullbitCode then { r with decState := bitCode s.cfg (s.cfg.N - 1) }
  else if s.sys.decState = s.cfg.N + 3 then
    { r with decSample := captured s 0, decValid := true, decCs := true, decState := idleCode }
  else
    { r with
      decSample := captured s (s.cfg.N + 3 - s.sys.decState)
      decState := bitCode s.cfg (s.cfg.N + 3 - s.sys.decState - 1) }

/-- The Accumulator's writes (R190 to R193). -/
def accUpd (s : State) (r : SysRegs) : SysRegs :=
  if s.sys.decValid then
    if s.atLim then { r with accOut := accTotal s, accValid := true, accSum := 0, accCnt := 0 }
    else
      { r with
        accSum := accTotal s
        accCnt := cut s.cfg.CW (s.sys.accCnt + 1)
        accValid := false }
  else { r with accValid := false }

/-- The Queue's writes (R210 to R212). -/
def queueUpd (s : State) (r : SysRegs) : SysRegs :=
  if s.sys.accValid then
    { r with
      qmem := Memory.write r.qmem s.sys.qWr (truncEntry s.cfg s.sys.accOut)
      qWr := if s.wrLast then 0 else cut s.cfg.QW (s.sys.qWr + 1) }
  else r

/-- The read cursor's writes (R235, R236). -/
def cursorUpd (s : State) (r : SysRegs) : SysRegs :=
  if s.rdDue then { r with hRdcnt := 0, hRd := cut s.cfg.QW (s.sys.hRd + 1) }
  else { r with hRdcnt := cut s.cfg.PW (s.sys.hRdcnt + 1) }

/-- The Queue's read (R213): `q_out` recorded, and a free value counted where there is no slot. -/
def readUpd (s : State) : State :=
  s.setRead s.qOut (s.draws + if (Memory.read s.sys.qmem s.sys.hRd).isSome then 0 else 1)

theorem execQRead_eq (s : State) : execQRead s = .next (readUpd s) := by
  unfold execQRead readUpd State.qOut
  split <;> rename_i h <;> simp [h]

theorem perform_dsel_upd {s : State} (hr : s.rst = false) (hc : s.sys.decState ≤ s.cfg.N + 3) :
    perform .dsel s = .next (s.setSysNext (decUpd s s.sysNext)) := by
  rw [perform_dsel_used hr hc]
  unfold decUpd
  by_cases h0 : s.sys.decState = idleCode
  · simp only [if_pos h0]; rfl
  by_cases h1 : s.sys.decState = wait1Code
  · simp only [if_neg h0, if_pos h1]; rfl
  by_cases h2 : s.sys.decState = wait2Code
  · simp only [if_neg h0, if_neg h1, if_pos h2]; rfl
  by_cases h3 : s.sys.decState = nullbitCode
  · simp only [if_neg h0, if_neg h1, if_neg h2, if_pos h3]; rfl
  by_cases h4 : s.sys.decState = s.cfg.N + 3
  · simp only [if_neg h0, if_neg h1, if_neg h2, if_neg h3, if_pos h4]; rfl
  simp only [if_neg h0, if_neg h1, if_neg h2, if_neg h3, if_neg h4]
  rw [decBitOp, if_pos]
  simp only [idleCode, wait1Code, wait2Code, nullbitCode] at *
  omega

/-- Whatever is pending already, the Accumulator adds its own writes (R13). -/
theorem perform_asel_upd {s : State} (hr : s.rst = false) (r : SysRegs) :
    perform .asel (s.setSysNext r) = .next (s.setSysNext (accUpd s r)) := by
  have hl : (s.setSysNext r).atLim = s.atLim := rfl
  rw [perform_asel, setSysNext_rst, hr, if_neg (by simp), setSysNext_sys, hl, accUpd]
  by_cases hv : s.sys.decValid = true
  · simp only [if_pos hv]
    by_cases ha : s.atLim = true
    · simp only [if_pos ha]; rfl
    · simp only [if_neg ha]; rfl
  · simp only [if_neg hv]; rfl

/-- A write through a cursor that names a slot (R211). -/
theorem queueWrite_eq {s : State} (hq : s.sys.qWr < s.sys.qmem.length) (wr : Nat) :
    queueWrite wr s =
      .next (s.setSysNext { s.sysNext with
        qmem := Memory.write s.sysNext.qmem s.sys.qWr (truncEntry s.cfg s.sys.accOut)
        qWr := wr }) :=
  if_pos hq

theorem perform_qsel_upd {s : State} (hr : s.rst = false) (hq : s.sys.qWr < s.sys.qmem.length)
    (r : SysRegs) : perform .qsel (s.setSysNext r) = .next (s.setSysNext (queueUpd s r)) := by
  have hl : (s.setSysNext r).wrLast = s.wrLast := rfl
  rw [perform_qsel, setSysNext_rst, hr, if_neg (by simp), setSysNext_sys, hl, queueUpd]
  by_cases hv : s.sys.accValid = true
  · simp only [if_pos hv]
    by_cases hw : s.wrLast = true
    · simp only [if_pos hw]
      exact queueWrite_eq (s := s.setSysNext r) hq 0
    · simp only [if_neg hw]
      exact queueWrite_eq (s := s.setSysNext r) hq _
  · simp only [if_neg hv]; rfl

theorem perform_qRead_upd (s : State) (r : SysRegs) :
    perform (.fixed .qRead) (s.setSysNext r) = .next ((readUpd s).setSysNext r) := by
  rw [perform_qRead, execQRead_eq]
  rfl

theorem perform_hsel_upd {s : State} (hr : s.rst = false) (r : SysRegs) :
    perform .hsel (s.setSysNext r) = .next (s.setSysNext (cursorUpd s r)) := by
  rw [perform_hsel, setSysNext_rst, hr, if_neg (by simp)]
  unfold cursorUpd
  show (if s.rdDue = true then _ else _) = _
  split <;> rfl

/-- All pending `sys` values of a tick. -/
def sysUpd (s : State) (r : SysRegs) : SysRegs :=
  cursorUpd s (queueUpd s (accUpd s (decUpd s r)))

/-- The `sys` edge without reset (R230 steps 1 and 2). -/
theorem sysEdge_upd {s : State} (hr : s.rst = false) (hc : s.sys.decState ≤ s.cfg.N + 3)
    (hq : s.sys.qWr < s.sys.qmem.length) :
    sysEdge s = .next ((readUpd s).setSysNext (sysUpd s s.sysNext)).commitSys := by
  unfold sysEdge
  rw [perform_dsel_upd hr hc, andThen_next, perform_asel_upd hr, andThen_next, perform_qsel_upd hr hq,
    andThen_next, perform_qRead_upd, andThen_next,
    perform_hsel_upd (s := readUpd s) (show (readUpd s).rst = false from hr), andThen_next]
  rfl

/-! ### The `adc` domain -/

/-- The Responder FSM's writes with a used state code, the load taking the entry e (R130 to R135, R142). -/
def rspUpd (s : State) (e : Bool × Int) (r : AdcRegs) : AdcRegs :=
  if s.adc.rspState = idleCode then (if s.cs then r else { r with rspState := wait1Code })
  else if s.cfg.rspAbort && s.cs then { r with rspState := idleCode }
  else if s.adc.rspState = wait1Code then
    { r with rspHoldBit := e.1, rspHoldSample := heldPattern s.cfg e.2, rspState := wait2Code }
  else if s.adc.rspState = wait2Code then { r with rspState := nullbitCode }
  else if s.adc.rspState = nullbitCode then { r with rspState := bitCode s.cfg (s.cfg.N - 1) }
  else if s.adc.rspState = s.cfg.N + 3 then { r with rspState := idleCode }
  else { r with rspState := bitCode s.cfg (s.cfg.N + 3 - s.adc.rspState - 1) }

/-- The Responder counter's writes (R140, R141). -/
def countUpd (s : State) (r : AdcRegs) : AdcRegs :=
  if s.atC then { r with rspCnt := 0, rspIdx := cut s.cfg.IW (s.adc.rspIdx + 1) }
  else { r with rspCnt := cut s.cfg.RW (s.adc.rspCnt + 1) }

/-- The Responder FSM performs the load in this tick (R131): WAIT1, and no abort takes its place. -/
def State.loads (s : State) : Prop :=
  s.adc.rspState = wait1Code ∧ (s.cfg.rspAbort && s.cs) = false

theorem perform_rsel_upd {s : State} (hr : s.rst = false)
    (hc : s.adc.rspState ≤ s.cfg.N + 3) {e : Bool × Int}
    (hl : s.loads → tableRead s.gtab s.adc.rspIdx = some e) :
    perform .rsel s = .next (s.setAdcNext (rspUpd s e s.adcNext)) := by
  rw [perform_rsel_used hr hc]
  unfold rspUpd
  by_cases h0 : s.adc.rspState = idleCode
  · simp only [if_pos h0]
    split <;> rfl
  by_cases ha : (s.cfg.rspAbort && s.cs) = true
  · simp only [if_neg h0, if_pos ha]
    have hab : s.cfg.rspAbort = true := by simp_all
    rw [execRspAbort, if_pos hab]; rfl
  by_cases h1 : s.adc.rspState = wait1Code
  · simp only [if_neg h0, if_neg ha, if_pos h1]
    rw [execRspWait1, hl ⟨h1, by simpa using ha⟩]
  by_cases h2 : s.adc.rspState = wait2Code
  · simp only [if_neg h0, if_neg ha, if_neg h1, if_pos h2]; rfl
  by_cases h3 : s.adc.rspState = nullbitCode
  · simp only [if_neg h0, if_neg ha, if_neg h1, if_neg h2, if_pos h3]; rfl
  by_cases h4 : s.adc.rspState = s.cfg.N + 3
  · simp only [if_neg h0, if_neg ha, if_neg h1, if_neg h2, if_neg h3, if_pos h4]; rfl
  simp only [if_neg h0, if_neg ha, if_neg h1, if_neg h2, if_neg h3, if_neg h4]
  rw [rspBitOp, if_pos]
  · rfl
  · simp only [idleCode, wait1Code, wait2Code, nullbitCode] at *
    omega

/-- A load past the table is MF1 (R131, R256). -/
theorem perform_rsel_mf1 {s : State} (hr : s.rst = false) (hN : 1 ≤ s.cfg.N) (hl : s.loads)
    (hi : tableRead s.gtab s.adc.rspIdx = none) :
    perform .rsel s = .fault (.mf1OutOfTable s.adc.rspIdx s.tick) := by
  obtain ⟨h1, ha⟩ := hl
  have hc : s.adc.rspState ≤ s.cfg.N + 3 := by rw [h1, wait1Code]; omega
  rw [perform_rsel_used hr hc, if_neg (by rw [h1]; decide), if_neg (by simp [ha]), if_pos h1,
    execRspWait1, hi]

theorem perform_csel_upd {s : State} (hr : s.rst = false) (r : AdcRegs) :
    perform .csel (s.setAdcNext r) = .next (s.setAdcNext (countUpd s r)) := by
  rw [perform_csel, setAdcNext_rst, hr, if_neg (by simp)]
  unfold countUpd
  show (if s.atC = true then _ else _) = _
  split <;> rfl

/-- The `adc` edge without reset (R230 steps 3 and 4). -/
theorem adcEdge_upd {s : State} (hr : s.rst = false) (hc : s.adc.rspState ≤ s.cfg.N + 3)
    {e : Bool × Int} (hl : s.loads → tableRead s.gtab s.adc.rspIdx = some e) :
    adcEdge s = .next (s.setAdcNext (countUpd s (rspUpd s e s.adcNext))).commitAdc := by
  unfold adcEdge
  rw [perform_rsel_upd hr hc hl, andThen_next, perform_csel_upd hr, andThen_next]

/-! ### The whole tick -/

/-- The state between the two edges of a tick without reset. -/
def midTick (s : State) : State :=
  ((readUpd s.beginTick).setSysNext (sysUpd s.beginTick s.sys)).commitSys

/-- A tick without reset, whose load, if it makes one, takes the entry e (R230). -/
theorem tick_upd {s : State} (hr : s.nextRst = false) (hd : s.sys.decState ≤ s.cfg.N + 3)
    (hq : s.sys.qWr < s.sys.qmem.length) (hs : s.adc.rspState ≤ s.cfg.N + 3) {e : Bool × Int}
    (hl : (midTick s).loads → tableRead s.gtab s.adc.rspIdx = some e) :
    tick s =
      .next ((midTick s).setAdcNext (countUpd (midTick s) (rspUpd (midTick s) e s.adc))).commitAdc := by
  unfold tick
  rw [sysEdge_upd (s := s.beginTick) hr hd hq, andThen_next]
  exact adcEdge_upd (s := midTick s) hr hs hl

/-- A tick without reset that loads past the table is MF1, with the number of this tick (R131, R256). -/
theorem tick_mf1 {s : State} (hr : s.nextRst = false) (hN : 1 ≤ s.cfg.N)
    (hd : s.sys.decState ≤ s.cfg.N + 3) (hq : s.sys.qWr < s.sys.qmem.length)
    (hl : (midTick s).loads) (hi : tableRead s.gtab s.adc.rspIdx = none) :
    tick s = .fault (.mf1OutOfTable s.adc.rspIdx (s.tick + 1)) := by
  unfold tick
  rw [sysEdge_upd (s := s.beginTick) hr hd hq, andThen_next]
  show adcEdge (midTick s) = _
  unfold adcEdge
  rw [perform_rsel_mf1 (s := midTick s) hr hN hl hi]
  rfl

/-- RESET's writes are the same however often an edge performs it. -/
theorem resetNext_resetNext (s : State) : s.resetNext.resetNext = s.resetNext := rfl

theorem sysEdge_reset {s : State} (hr : s.rst = true) :
    sysEdge s = .next (readUpd s).resetNext.commitSys := by
  have h1 : s.resetNext.rst = true := hr
  have h2 : (readUpd s.resetNext).rst = true := hr
  unfold sysEdge
  rw [perform_dsel, hr, if_pos rfl, execReset, andThen_next, perform_asel, h1, if_pos rfl, execReset,
    andThen_next, resetNext_resetNext, perform_qsel, h1, if_pos rfl, execReset, andThen_next,
    resetNext_resetNext, perform_qRead, execQRead_eq, andThen_next, perform_hsel, h2, if_pos rfl,
    execReset, andThen_next]
  rfl

theorem adcEdge_reset {s : State} (hr : s.rst = true) : adcEdge s = .next s.resetNext.commitAdc := by
  have h1 : s.resetNext.rst = true := hr
  unfold adcEdge
  rw [perform_rsel, hr, if_pos rfl, execReset, andThen_next, perform_csel, h1, if_pos rfl, execReset,
    andThen_next, resetNext_resetNext]

/-- What a reset tick leaves (R272): every register at its reset value, QMEM as it was. -/
theorem tick_reset {s : State} (hr : s.nextRst = true) :
    tick s =
      .next { readUpd s.beginTick with
        sys := SysRegs.reset s.sys.qmem
        sysNext := SysRegs.reset s.sys.qmem
        adc := AdcRegs.reset
        adcNext := AdcRegs.reset } := by
  unfold tick
  rw [sysEdge_reset (s := s.beginTick) hr, andThen_next]
  exact adcEdge_reset (s := (readUpd s.beginTick).resetNext.commitSys) hr

theorem step_run {s : State} (h : s.stage = .run) : step s = tick s := by
  simp [step, advance, h]

end Sys2Proof.Machine
end

