-- ==== Sys2Proof/Laws/Wave.lean ====
section
/-!
SUPPORT. What tones, turns and COS are as numbers (R7, R9, R110), and that a proposal made from a
configuration is that configuration.
-/

namespace Sys2Proof

/-- The free reals are not 0, so the check of a tone asks its real number. -/
theorem Tone.nonpositive_iff (f : Tone) : f.nonpositive = true ↔ f.value ≤ 0 := by
  rcases f with q | ⟨_ | _, n⟩ <;> simp [nonpositive, value, mul_self_nonneg]

@[simp] theorem Turns.value_add (c : Config) (a b : Turns) :
    (a.add b).value c = a.value c + b.value c := by
  simp only [value, add]; push_cast; ring

@[simp] theorem Turns.value_sub (c : Config) (a b : Turns) :
    (a.sub b).value c = a.value c - b.value c := by
  simp only [value, sub]; push_cast; ring

@[simp] theorem Turns.value_ofTone (c : Config) (k : Rat) (b : Bool) :
    (Turns.ofTone k b).value c = (k : ℝ) * (Machine.genFreq c b).value := by
  cases b <;> simp [value, ofTone, Machine.genFreq]

/-- A product that is a known rational is that real number. -/
theorem Tone.scaled?_value {k q : Rat} {f : Tone} (h : f.scaled? k = some q) :
    (q : ℝ) = (k : ℝ) * f.value := by
  unfold scaled? at h
  split at h
  · cases h; simp_all
  · split at h
    · cases h; simp [value]
    · cases h

/-- The rational number of turns is the real number of turns. -/
theorem Turns.exact?_value {c : Config} {a : Turns} {q : Rat} (h : a.exact? c = some q) :
    (q : ℝ) = a.value c := by
  unfold exact? at h
  split at h
  · rename_i h1 h0
    cases h
    simp [value, Tone.scaled?_value h1, Tone.scaled?_value h0]
  · cases h

@[simp] theorem Config.proposal_toConfig (c : Config) : c.proposal.toConfig = c := rfl

namespace Machine

/-- COS answers values in [-1, 1] only (R9). -/
theorem cosTurns_mem (c : Config) (a : Turns) : -1 ≤ cosTurns c a ∧ cosTurns c a ≤ 1 := by
  unfold cosTurns clampUnit
  split
  · norm_num
  · split
    · norm_num
    · exact ⟨not_lt.mp ‹_›, not_lt.mp ‹_›⟩

end Machine

end Sys2Proof
end

