-- ==== Sys2Proof/Tests/Slice0.lean ====
section
/-!
SUPPORT. The model's own tests. Expected values come from the vectors of 95_test_vectors.md (named in each
comment), from the tables of 30_encoding.md, or from a calculation by hand from the rule named. Every
statement with hypotheses has a theorem `witness_<its name>` with values that meet them together.
-/

namespace Sys2Proof.Tests

open Sys2Proof.Machine

set_option Elab.async false

/-! ### Helpers: small blocks, and reading an outcome -/

/-- The configuration of program P2 (N = 4), with slots that power up at 0. -/
def p2 : Config where
  N := 4
  C := 7
  D := 1
  K := 2
  T := 4
  F := 8
  R := 1
  f1 := .rational 1
  f0 := .rational 2
  B := 9
  P := 1
  rdPeriod := 8
  source := .given [(1, 3), (0, 2), (1, 7), (0, 7), (1, -4), (0, -5), (1, 1), (0, -1), (1, 4)]
  qmemInit := [0, 0]

/-- The table of program P2. -/
def table2 : List (Bool × Int) :=
  givenTable [(1, 3), (0, 2), (1, 7), (0, 7), (1, -4), (0, -5), (1, 1), (0, -1), (1, 4)]

/-- The configuration of program P1 (N = 10), with slots that power up at 0. -/
def p1 : Config :=
  { p2 with
    N := 10
    C := 13
    K := 8
    T := 10
    B := 3
    rdPeriod := 1
    source := .given [(1, 421), (0, -300), (0, 0)]
    qmemInit := [0, 0, 0, 0, 0, 0, 0, 0] }

/-- The table of program P1. -/
def table1 : List (Bool × Int) :=
  givenTable [(1, 421), (0, -300), (0, 0)]

/-- The smallest block: N = 2, one sample a sum. -/
def tiny : Config :=
  { p2 with
    N := 2
    C := 5
    T := 2
    B := 2
    accMode := .corrected
    source := .given [(1, 1), (0, -2)] }

/-- The table of the smallest block. -/
def tableTiny : List (Bool × Int) :=
  givenTable [(1, 1), (0, -2)]

/-- S_0 of P2. -/
def s2 : State := State.powerOn p2 table2

/-- S_0 of P1. -/
def s1 : State := State.powerOn p1 table1

/-- A block between two ticks with these registers. -/
def holding (s : State) (r : SysRegs) (a : AdcRegs) : State :=
  { s with sys := r, sysNext := r, adc := a, adcNext := a }

/-- The two FSMs in these states with this `dec_cs`, everything else as it was. -/
def fsms (s : State) (d r : Nat) (cs : Bool) : State :=
  holding s { s.sys with decState := d, decCs := cs } { s.adc with rspState := r }

/-- The option RSP_ABORT switched on. -/
def aborting (s : State) : State :=
  { s with cfg := { s.cfg with rspAbort := true } }

/-- The outcome is a next state with the property. -/
def nextIs (o : Result) (p : State → Bool) : Bool :=
  match o with
  | .next t => p t
  | .fault _ => false
  | .refused _ => false

/-- The outcome is this fault. -/
def faultIs (o : Result) (f : Fault) : Bool :=
  match o with
  | .next _ => false
  | .fault g => decide (g = f)
  | .refused _ => false

/-- The outcome is this refusal. -/
def refusedIs (o : Result) (r : Refusal) : Bool :=
  match o with
  | .next _ => false
  | .fault _ => false
  | .refused q => decide (q = r)

/-- The decoder reads the operation. -/
def reads (c : Config) (f : Format) (w : Nat) (i : Instr) : Bool :=
  match decode c f w with
  | .ok j => decide (j = i)
  | .error _ => false

/-- The decoder rejects the word by this name. -/
def rejectsAs (c : Config) (f : Format) (w : Nat) (e : DecodeError) : Bool :=
  match decode c f w with
  | .ok _ => false
  | .error d => decide (d = e)

theorem next_of {o : Result} (h : nextIs o (fun _ => true) = true) : ∃ t, o = .next t := by
  cases o with
  | next t => exact ⟨t, rfl⟩
  | fault r => cases h
  | refused r => cases h

theorem reads_ok {c : Config} {f : Format} {w : Nat} {i : Instr} (h : reads c f w i = true) :
    decode c f w = .ok i := by
  unfold reads at h
  split at h
  · rename_i j hj
    rw [hj, of_decide_eq_true h]
  · cases h

/-! ### WellFormed: an operation that does not exist is refused (R104, R106, R142) -/

theorem test_wf_refuses :
    Instr.wf p2 .decBit9 = false ∧ Instr.wf p2 .rspBit4 = false ∧ Instr.wf p2 .decBit3 = true ∧
    Instr.wf Config.scenario (.decBitN 9) = false ∧ Instr.wf Config.scenario (.rspBitN 10) = false ∧
    Instr.wf { p2 with N := 16 } (.decBitN 10) = true ∧
    Instr.wf Config.scenario .rspAbort = false ∧ Instr.wf { p2 with rspAbort := true } .rspAbort = true ∧
    Instr.wf { p2 with N := 12 } .unusedDsel14 = false ∧ Instr.wf p2 .unusedRsel15 = false ∧
    Instr.wf Config.scenario .unusedRsel15 = true := by
  decide +kernel

theorem test_canonical_form_refuses :
    Memory.wf p2 [0] = false ∧ Memory.wf p2 [0, 8] = false ∧ Memory.wf p2 [-8, 7] = true := by
  decide +kernel

/-! ### Decoding: words written out from R91 to R98 and opcode_table.json, N = 10 -/

theorem test_decode_dsel :
    reads p1 .dsel 0b00000 .decIdle ∧ reads p1 .dsel 0b00001 .decWait1 ∧
    reads p1 .dsel 0b00010 .decWait2 ∧ reads p1 .dsel 0b00011 .decNullbit ∧
    reads p1 .dsel 0b00100 .decBit9 ∧ reads p1 .dsel 0b00101 .decBit8 ∧
    reads p1 .dsel 0b00110 .decBit7 ∧ reads p1 .dsel 0b00111 .decBit6 ∧
    reads p1 .dsel 0b01000 .decBit5 ∧ reads p1 .dsel 0b01001 .decBit4 ∧
    reads p1 .dsel 0b01010 .decBit3 ∧ reads p1 .dsel 0b01011 .decBit2 ∧
    reads p1 .dsel 0b01100 .decBit1 ∧ reads p1 .dsel 0b01101 .decBit0 ∧
    reads p1 .dsel 0b01110 .unusedDsel14 ∧ reads p1 .dsel 0b01111 .unusedDsel15 ∧
    reads p1 .dsel 0b10000 .reset ∧ reads p1 .dsel 0b11010 .reset := by
  decide +kernel

theorem test_decode_rsel :
    reads p1 .rsel 0b010000 .rspIdleHold ∧ reads p1 .rsel 0b000000 .rspIdleGo ∧
    reads p1 .rsel 0b000001 .rspWait1 ∧ reads p1 .rsel 0b000010 .rspWait2 ∧
    reads p1 .rsel 0b000011 .rspNullbit ∧ reads p1 .rsel 0b000100 .rspBit9 ∧
    reads p1 .rsel 0b000101 .rspBit8 ∧ reads p1 .rsel 0b000110 .rspBit7 ∧
    reads p1 .rsel 0b000111 .rspBit6 ∧ reads p1 .rsel 0b001000 .rspBit5 ∧
    reads p1 .rsel 0b001001 .rspBit4 ∧ reads p1 .rsel 0b001010 .rspBit3 ∧
    reads p1 .rsel 0b001011 .rspBit2 ∧ reads p1 .rsel 0b001100 .rspBit1 ∧
    reads p1 .rsel 0b011101 .rspBit0 ∧ reads p1 .rsel 0b001110 .unusedRsel14 ∧
    reads p1 .rsel 0b011111 .unusedRsel15 ∧ reads p1 .rsel 0b100000 .reset := by
  decide +kernel

/-- Without the option the cs bit is ignored outside IDLE; with it, it selects the abort, and IDLE and
RESET take priority (R92, R106). -/
theorem test_decode_abort :
    reads p1 .rsel 0b010001 .rspWait1 ∧ reads { p1 with rspAbort := true } .rsel 0b010001 .rspAbort ∧
    reads { p1 with rspAbort := true } .rsel 0b011101 .rspAbort ∧
    reads { p1 with rspAbort := true } .rsel 0b010000 .rspIdleHold ∧
    reads { p1 with rspAbort := true } .rsel 0b110001 .reset ∧
    reads { p1 with rspAbort := true } .rsel 0b011110 .unusedRsel14 := by
  decide +kernel

theorem test_decode_small_formats :
    reads p1 .csel 0b00 .rspCount ∧ reads p1 .csel 0b01 .rspWrap ∧ reads p1 .csel 0b10 .reset ∧
    reads p1 .asel 0b000 .accHold ∧ reads p1 .asel 0b001 .accHold ∧ reads p1 .asel 0b010 .accAdd ∧
    reads p1 .asel 0b011 .accEmit ∧ reads p1 .asel 0b101 .reset ∧
    reads p1 .qsel 0b000 .qNowrite ∧ reads p1 .qsel 0b001 .qNowrite ∧
    reads p1 .qsel 0b010 .qWriteAdv ∧ reads p1 .qsel 0b011 .qWriteWrap ∧ reads p1 .qsel 0b100 .reset ∧
    reads p1 .hsel 0b00 .hRdwait ∧ reads p1 .hsel 0b01 .hRdadv ∧ reads p1 .hsel 0b11 .reset ∧
    reads p1 .gsel 0b00 .genSame ∧ reads p1 .gsel 0b10 .genNewsym ∧ reads p1 .gsel 0b11 .genFlip ∧
    reads p1 (.fixed .qRead) 0 .qRead ∧ reads p1 (.fixed .genInit) 0 .genInit ∧
    reads p1 (.fixed .genEmit) 0 .genEmit := by
  decide +kernel

/-- N = 16: SW = 5, BIT(15) is code 4 and BIT(10) code 9 (R91, R106). -/
theorem test_decode_wide :
    reads { p1 with N := 16 } .dsel 0b000100 (.decBitN 15) ∧
    reads { p1 with N := 16 } .dsel 0b001001 (.decBitN 10) ∧
    reads { p1 with N := 16 } .dsel 0b001010 .decBit9 ∧
    reads { p1 with N := 16 } .rsel 0b0001001 (.rspBitN 10) ∧
    reads { p1 with N := 16 } .dsel 0b001110 .decBit5 := by
  decide +kernel

/-- What is no word of a format, or cannot occur (R97), selects nothing. -/
theorem test_decode_rejects :
    rejectsAs p1 .gsel 0b01 .impossibleGsel ∧ rejectsAs p1 .csel 0b100 (.tooWide .csel 4) ∧
    rejectsAs { p1 with N := 20 } .dsel 30 (.unusedState .decoder 30) := by
  decide +kernel

theorem test_table_words :
    decodeTableWord 5 0b00100 = some .decBit9 ∧ decodeTableWord 6 0b000100 = some .rspBit9 ∧
    decodeTableWord 3 0b010 = some .accAdd ∧ decodeTableWord 2 0b11 = some .genFlip ∧
    decodeTableWord 1 1 = some .reset := by
  decide +kernel

/-! ### The Decoder (vectors DEC-1 to DEC-8) -/

theorem test_dec_idle :
    nextIs (step (holding s1 { s1.sys with decValid := true } s1.adc)) fun t =>
      t.sys.decState == 1 && !t.sys.decCs && !t.sys.decValid := by
  decide +kernel

theorem test_dec_lead_in :
    (nextIs (step (fsms s1 1 1 false)) fun t => t.sys.decState == 2) ∧
    (nextIs (step (fsms s1 2 2 false)) fun t => t.sys.decState == 3) ∧
    (nextIs (step (fsms s1 3 3 false)) fun t => t.sys.decState == 4) := by
  decide +kernel

/-- The Decoder in BIT(9) with sample 421, the line at 1 (DEC-5). -/
theorem test_dec_bit9 :
    nextIs (step (holding s1 { s1.sys with decState := 4, decCs := false, decSample := 421 }
      { s1.adc with rspState := 4, rspHoldSample := 512 })) fun t =>
      t.sys.decState == 5 && t.sys.decSample == -91 := by
  decide +kernel

/-- The Decoder in BIT(0): DEC-6 and DEC-7. -/
theorem test_dec_bit0 :
    (nextIs (step (holding s1 { s1.sys with decState := 13, decCs := false, decSample := 420 }
      { s1.adc with rspState := 13, rspHoldSample := 421 })) fun t =>
      t.sys.decState == 0 && t.sys.decSample == 421 && t.sys.decCs && t.sys.decValid) ∧
    (nextIs (step (holding s1 { s1.sys with decState := 13, decCs := false, decSample := -299 }
      { s1.adc with rspState := 13, rspHoldSample := 724 })) fun t =>
      t.sys.decSample == -300 && t.sys.decValid) := by
  decide +kernel

/-- DEC-9 from sample 421 and 724 on the line: bits 8 to 1 in turn. -/
theorem test_dec_bits :
    let at_ := fun (code : Nat) (v : Int) =>
      holding s1 { s1.sys with decState := code, decCs := false, decSample := v }
        { s1.adc with rspState := code, rspHoldSample := 724 }
    (nextIs (step (at_ 5 (-91))) fun t => t.sys.decSample == -347) ∧
    (nextIs (step (at_ 6 (-347))) fun t => t.sys.decSample == -347) ∧
    (nextIs (step (at_ 7 (-347))) fun t => t.sys.decSample == -283) ∧
    (nextIs (step (at_ 8 (-283))) fun t => t.sys.decSample == -315) ∧
    (nextIs (step (at_ 9 (-315))) fun t => t.sys.decSample == -299) ∧
    (nextIs (step (at_ 10 (-299))) fun t => t.sys.decSample == -299) ∧
    (nextIs (step (at_ 11 (-299))) fun t => t.sys.decSample == -299) ∧
    (nextIs (step (at_ 12 (-299))) fun t => t.sys.decSample == -299) := by
  decide +kernel

theorem test_dec_unused :
    faultIs (step (fsms s1 15 0 true)) (.mf2UnreachableState .decoder 15) ∧
    faultIs (step (fsms s1 14 0 true)) (.mf2UnreachableState .decoder 14) := by
  decide +kernel

/-! ### The Responder (vectors RSP-1 to RSP-14), its edge alone -/

/-- A Responder with these registers and this wire cs, at its edge. -/
def rspAt (st cnt idx hold : Nat) (cs : Bool) : State :=
  holding s1 { s1.sys with decCs := cs }
    { s1.adc with rspState := st, rspCnt := cnt, rspIdx := idx, rspHoldSample := hold }

theorem test_rsp_idle :
    (nextIs (adcEdge (rspAt 0 0 0 0 true)) fun t => t.adc.rspState == 0 && t.adc.rspCnt == 1) ∧
    (nextIs (adcEdge (rspAt 0 0 0 0 false)) fun t => t.adc.rspState == 1 && t.adc.rspCnt == 1) := by
  decide +kernel

/-- RSP-3, and RSP-9: the load reads the pre-edge index. -/
theorem test_rsp_load :
    (nextIs (adcEdge (rspAt 1 1 0 0 false)) fun t =>
      t.adc.rspState == 2 && t.adc.rspHoldSample == 421 && t.adc.rspHoldBit) ∧
    (nextIs (adcEdge (rspAt 1 13 1 0 false)) fun t =>
      t.adc.rspHoldSample == 724 && !t.adc.rspHoldBit && t.adc.rspCnt == 0 && t.adc.rspIdx == 2) := by
  decide +kernel

/-- RSP-10, with the three entries of P1's table. -/
theorem test_rsp_load_past_table :
    faultIs (adcEdge (rspAt 1 0 3 0 false)) (.mf1OutOfTable 3 0) := by
  decide +kernel

/-- RSP-4 to RSP-8, and the data line in each pre-state. -/
theorem test_rsp_serial :
    (nextIs (adcEdge (rspAt 2 0 0 421 false)) fun t => t.adc.rspState == 3) ∧
    (nextIs (adcEdge (rspAt 3 0 0 421 false)) fun t => t.adc.rspState == 4) ∧
    (rspAt 3 0 0 421 false).din = false ∧
    (nextIs (adcEdge (rspAt 4 0 0 421 false)) fun t => t.adc.rspState == 5) ∧
    (rspAt 4 0 0 421 false).din = false ∧
    (nextIs (adcEdge (rspAt 5 0 0 421 false)) fun t => t.adc.rspState == 6) ∧
    (rspAt 5 0 0 421 false).din = true ∧
    (nextIs (adcEdge (rspAt 13 13 0 421 true)) fun t =>
      t.adc.rspState == 0 && t.adc.rspCnt == 0 && t.adc.rspIdx == 1) ∧
    (rspAt 13 13 0 421 true).din = true := by
  decide +kernel

/-- RSP-11 to RSP-13. -/
theorem test_rsp_abort :
    (nextIs (adcEdge (rspAt 8 0 0 421 true)) fun t => t.adc.rspState == 9) ∧
    (nextIs (adcEdge (aborting (rspAt 8 0 0 421 true))) fun t => t.adc.rspState == 0) ∧
    (nextIs (adcEdge (aborting (rspAt 1 0 0 5 true))) fun t =>
      t.adc.rspState == 0 && t.adc.rspHoldSample == 5 && t.adc.rspCnt == 1) := by
  decide +kernel

theorem test_rsp_unused :
    faultIs (adcEdge (rspAt 14 0 0 0 true)) (.mf2UnreachableState .responder 14) ∧
    faultIs (adcEdge (rspAt 15 0 0 0 false)) (.mf2UnreachableState .responder 15) := by
  decide +kernel

/-- BIT(15) and BIT(10) at N = 16 capture their own bits (R164, R106). -/
theorem test_wide_bits :
    let s := State.powerOn { p1 with N := 16 } table1
    (nextIs (exec (.decBitN 15) (holding s { s.sys with decState := 4 }
        { s.adc with rspState := 4, rspHoldSample := 32768 })) fun t =>
      t.sysNext.decSample == -32768 && t.sysNext.decState == 5) ∧
    (nextIs (exec (.rspBitN 10) s) fun t => t.adcNext.rspState == 10) := by
  decide +kernel

/-! ### The Accumulator (ACC-1 to ACC-9) -/

/-- ACC-1, ACC-2 and ACC-3. -/
theorem test_acc_step :
    (nextIs (step (holding s2 { s2.sys with decValid := true, decSample := 7 } s2.adc)) fun t =>
      t.sys.accSum == 7 && t.sys.accCnt == 1 && !t.sys.accValid) ∧
    (nextIs (step (holding s2 { s2.sys with accValid := true, accSum := 3, accCnt := 1 } s2.adc)) fun t =>
      !t.sys.accValid && t.sys.accSum == 3 && t.sys.accCnt == 1) ∧
    (nextIs (step (holding s2
      { s2.sys with decValid := true, decSample := 7, accSum := 7, accCnt := 1 } s2.adc)) fun t =>
      t.sys.accOut == -2 && t.sys.accValid && t.sys.accSum == 0 && t.sys.accCnt == 0) := by
  decide +kernel

/-- ACC-4, ACC-6 (its first sum) and ACC-7. -/
theorem test_acc_groups :
    (nextIs (acceptAll [7, 7, 7, 7] (State.powerOn { p2 with D := 3 } [])) fun t =>
      t.sys.accOut == 28 && t.sys.accValid) ∧
    (nextIs (acceptAll [7, 7, 7] (State.powerOn { p2 with D := 3, accMode := .corrected } [])) fun t =>
      t.sys.accOut == 21 && t.sys.accValid) ∧
    (nextIs (acceptAll [7, 7, 7, 7, 7] (State.powerOn { p2 with D := 4 } [])) fun t =>
      t.sys.accOut == -29 && t.sys.accValid) := by
  decide +kernel

/-! ### The Queue (Q-1 to Q-9) and the read cursor (H-1, H-2) -/

theorem test_queue_write :
    (nextIs (step (holding s2 { s2.sys with accValid := true, accOut := -2 } s2.adc)) fun t =>
      t.sys.qmem == [-2, 0] && t.sys.qWr == 1) ∧
    (nextIs (step (holding s2 { s2.sys with accValid := true, accOut := -2, qWr := 1 } s2.adc)) fun t =>
      t.sys.qmem == [0, -2] && t.sys.qWr == 0) ∧
    (nextIs (step (holding s2 { s2.sys with qWr := 1 } s2.adc)) fun t =>
      t.sys.qmem == [0, 0] && t.sys.qWr == 1) := by
  decide +kernel

/-- Q-4: W = 6, T = 4. -/
theorem test_truncation :
    let c := { p2 with D := 4 }
    ([-1, -5, 5, 20, -20, 31, -32].map (truncEntry c) = [-1, -2, 1, 5, -5, 7, -8]) ∧
    ([-1, -5, 5, 20, -20, 31, -32].map (truncEntry { c with truncSelect := .lsb }) =
      [-1, -5, 5, 4, -4, -1, 0]) := by
  decide +kernel

/-- Q-6: K + 1 writes overwrite slot 0. -/
theorem test_queue_ring :
    nextIs (acceptWrites [1, 2, 3, 4] (State.powerOn { p2 with K := 3, qmemInit := [0, 0, 0] } []))
      fun t => t.sys.qmem == [4, 2, 3] && t.sys.qWr == 1 := by
  decide +kernel

/-- Q-9: a read past the slots takes a free value, Q-7: one inside reads the slot. -/
theorem test_queue_read :
    let s := State.powerOn { p2 with K := 3, qmemInit := [5, 6, 7] } []
    (nextIs (exec .qRead (holding s { s.sys with hRd := 3 } s.adc)) fun t => t.draws == 1) ∧
    (nextIs (exec .qRead (holding s { s.sys with hRd := 1 } s.adc)) fun t =>
      t.draws == 0 && t.qOutRead == 6) := by
  decide +kernel

theorem test_cursor :
    (nextIs (step (holding s2 { s2.sys with hRdcnt := 3 } s2.adc)) fun t =>
      t.sys.hRdcnt == 4 && t.sys.hRd == 0) ∧
    (nextIs (step (holding s2 { s2.sys with hRdcnt := 7, hRd := 1 } s2.adc)) fun t =>
      t.sys.hRdcnt == 0 && t.sys.hRd == 0) := by
  decide +kernel

/-! ### Reset (RST-1, RST-2) -/

/-- A block in the middle of a transfer, its queue written, with a reset coming. -/
def midReset : State :=
  { holding s2
      { s2.sys with decState := 4, decCs := false, decSample := 5, accSum := 3, accCnt := 1,
                    qmem := [2, 3], qWr := 1, hRd := 1, hRdcnt := 3 }
      { s2.adc with rspState := 4, rspCnt := 3, rspIdx := 1, rspHoldSample := 13 } with
    rstIn := [true] }

theorem test_reset_tick :
    nextIs (step midReset) fun t =>
      t.sys == SysRegs.reset [2, 3] && t.adc == AdcRegs.reset := by
  decide +kernel

/-- The four UNUSED codes raise nothing in a reset tick (R257). -/
theorem test_reset_over_unused :
    nextIs (step { fsms s1 15 14 true with rstIn := [true] }) fun t => t.sys.decState == 0 := by
  decide +kernel

theorem test_power_on :
    s1.sys.decState = 0 ∧ s1.sys.decCs = true ∧ s1.din = true ∧ s1.dataValid = false ∧ s1.qOut = 0 := by
  decide +kernel

/-! ### The Generator (GEN-1 to GEN-7) and construction (CE-1 to CE-7) -/

/-- The cosine at the arguments of GEN-1 and GEN-3, in turns, to four digits. -/
def toyCos : CosField where
  points :=
    [(0, 1), (1 / 8, 7071 / 10000), (1 / 4, 0), (3 / 8, -7071 / 10000), (1 / 2, -1),
      (5 / 8, -7071 / 10000), (3 / 4, 0), (7 / 8, 7071 / 10000)] ++
    [(1, 1), (5 / 4, 0), (3 / 2, -1), (7 / 4, 0), (2, 1), (9 / 4, 0), (5 / 2, -1), (11 / 4, 0)] ++
    [(9 / 8, 7071 / 10000), (11 / 8, -7071 / 10000)]

/-- The toy configuration of GEN-1. -/
def toy : Config :=
  { p2 with C := 1, B := 2, P := 8, source := .bits [true, false], cos := toyCos }

/-- The toy with this bias. -/
def biased (b : Int) : Config :=
  { toy with quantBias := b }

/-- The toy with nine samples a bit, so that index 16 has no symbol. -/
def overrun : Config :=
  { toy with P := 9 }

/-- The toy with two tones that are free positive reals. -/
def irrational : Config :=
  { toy with f1 := .real true 0, f0 := .real true 1 }

/-- The table of GEN-1. -/
def toyTable : List (Bool × Int) :=
  [(true, 7), (true, 4), (true, 0), (true, -4), (true, -7), (true, -4), (true, 0), (true, 4)] ++
  [(false, 7), (false, 0), (false, -7), (false, 0), (false, 7), (false, 0), (false, -7), (false, 0)]

/-- The Generator of the toy at index t. -/
def genAt (t : Nat) : State :=
  { State.unbuilt toy.proposal with genT := t, stage := .genSelect, gen := genStart true }

/-- The first step of this proposal's construction. -/
def first (p : Proposal) : Result :=
  step (State.unbuilt p)

theorem test_gen_init :
    nextIs (exec .genInit (State.unbuilt toy.proposal)) fun t =>
      t.gen.lastSym == 0 && t.gen.curBit && decide (t.gen.phase = { one := 0, zero := 0 }) := by
  decide +kernel

/-- GEN-1, its whole table; with `QUANT_BIAS = 1` the refusal CE-5 (GEN-7). -/
theorem test_gen_table :
    (nextIs (stepsFrom 35 (State.unbuilt toy.proposal)) fun t =>
      t.gtab == toyTable && decide (t.stage = .run)) ∧
    refusedIs (stepsFrom 4 (State.unbuilt (biased 1).proposal))
      (.ce2WidthTooSmall (.tableValue 0 8)) := by
  decide +kernel

/-- GEN-1 at t = 3 and t = 8: sym, the selected operation, and the phase of -2π: f1 - f0 turns. -/
theorem test_gen_select :
    selector .gsel (genAt 3) = 0b00 ∧ selector .gsel (genAt 8) = 0b11 ∧
    (nextIs (step (genAt 3)) fun t => t.gen == genStart true && t.stage == .genEmit) ∧
    (nextIs (step (genAt 8)) fun t =>
      t.gen.lastSym == 1 && !t.gen.curBit && t.gen.phase == { one := 1, zero := -1 } &&
        t.gen.phase.exact? toy == some (-1)) := by
  decide +kernel

/-- GEN-3: a new symbol with the same bit, and the whole table. -/
theorem test_gen_newsym :
    let c := { toy with B := 3, P := 4, source := .bits [true, true, false] }
    let s := { genAt 8 with cfg := c }
    selector .gsel s = 0b10 ∧
    (nextIs (exec .genNewsym s) fun t =>
      t.gen.lastSym == 1 && decide (t.gen.phase = (genStart true).phase)) ∧
    (genEntries c).map Prod.snd = [7, 4, 0, -4, -7, -4, 0, 4, 7, 4, 0, -4] := by
  decide +kernel

/-- GEN-2: the argument at the flip is one turn under both tones. -/
theorem test_gen_phase :
    (genArg toy 8 (genFlipVars toy 8 false (genStart true))).exact? toy = some 1 ∧
    (genArg toy 8 (genStart true)).exact? toy = some 1 := by
  decide +kernel

/-- GEN-6, and the toy's samples for cosine values 1, 0.7071, 0, -0.7071 and -1 (GEN-1). -/
theorem test_gen_quantise :
    truncQ (49497 / 10000) = 4 ∧ roundHalfEven (49497 / 10000) = 5 ∧ truncQ (-49497 / 10000) = -4 ∧
    roundHalfEven (-49497 / 10000) = -5 ∧ truncQ (5 / 2) = 2 ∧ roundHalfEven (5 / 2) = 2 ∧
    truncQ (7 / 2) = 3 ∧ roundHalfEven (7 / 2) = 4 ∧
    quantise toy 1 = 7 ∧ quantise toy (7071 / 10000) = 4 ∧ quantise toy 0 = 0 ∧
    quantise toy (-7071 / 10000) = -4 ∧ quantise toy (-1) = -7 := by
  decide +kernel

/-- GEN-5: sym(7693) = 20 with the scenario's constants. -/
theorem test_gen_symbol_range :
    genSym Config.scenario 7693 = 20 ∧ genSym Config.scenario 7692 = 19 ∧
    refusedIs (exec .genNewsym { State.unbuilt Config.scenario.proposal with genT := 7693 })
      (.ce4BadConfig (.symbol 7693 20)) ∧
    refusedIs (exec .genFlip { State.unbuilt Config.scenario.proposal with genT := 7693 })
      (.ce4BadConfig (.symbol 7693 20)) := by
  decide +kernel

/-- CE-1 to CE-4 and CE-7. -/
theorem test_construction_errors :
    refusedIs (first { p2.proposal with D := 0, N := 1 }) (.ce3ZeroCount .D) ∧
    refusedIs (first { p1.proposal with T := 11 }) (.ce2WidthTooSmall (.truncWidth 11 10)) ∧
    refusedIs (first { p2.proposal with T := 0 }) (.ce4BadConfig (.param .T)) ∧
    refusedIs (first { p2.proposal with K := 0 }) (.ce3ZeroCount .K) ∧
    refusedIs (first { toy.proposal with source := .bits [true, true, false] })
      (.ce4BadConfig (.param .lenBits)) := by
  decide +kernel

/-- Negative integers, and tones that are not above 0 (R7, R251); a free positive tone is accepted. -/
theorem test_proposals :
    refusedIs (first { p2.proposal with P := -1, N := -2 }) (.ce4BadConfig (.param .P)) ∧
    refusedIs (first { p2.proposal with N := -2 }) (.ce4BadConfig (.param .N)) ∧
    refusedIs (first { p2.proposal with D := -1, K := 0 }) (.ce3ZeroCount .K) ∧
    refusedIs (first { p2.proposal with f0 := .rational (-1 / 2) }) (.ce4BadConfig (.param .f0)) ∧
    refusedIs (first { p2.proposal with f1 := .real false 0 }) (.ce4BadConfig (.param .f1)) ∧
    (nextIs (first irrational.proposal) fun t => decide (t.cfg = irrational)) := by
  decide +kernel

/-- A given table is refused for its length, then for a bit, then for a value (R252 check 4), a listed
power-on value outside T bits after it (check 5). -/
theorem test_table_errors :
    refusedIs (first { tiny.proposal with source := .given [(1, 1)] })
      (.ce4BadConfig (.tableLength 1)) ∧
    refusedIs (first { tiny.proposal with source := .given [(1, 2), (2, 0)] })
      (.ce4BadConfig (.tableBit 1 2)) ∧
    refusedIs (first { tiny.proposal with source := .given [(-1, 2), (1, 0)] })
      (.ce4BadConfig (.tableBit 0 (-1))) ∧
    refusedIs (first { tiny.proposal with source := .given [(1, 1), (0, 2)] })
      (.ce2WidthTooSmall (.tableValue 1 2)) ∧
    refusedIs (stepsFrom 2 (State.unbuilt { tiny.proposal with qmemInit := [0, 2] }))
      (.ce4BadConfig (.queueInit 1 2)) := by
  decide +kernel

/-- The encoding of tick 1 of P1, and of a reset tick in WAIT2 as P3's, whose RSEL has cs = 1
(95_test_vectors.md section 9). -/
theorem test_tick_words :
    tickWords s1 = some [0b00000, 0b000000, 0b00, 0b000, 0b000, 0b01] ∧
    tickWords { fsms s2 2 2 false with rstIn := [true] } =
      some [0b1010, 0b11010, 0b10, 0b100, 0b100, 0b10] := by
  decide +kernel

/-! ### Witnesses: values that meet every hypothesis of a statement together -/

/-- A property of some state and its next state. -/
theorem with_next {P : State → Prop} (s : State) (hs : P s)
    (h : nextIs (step s) (fun _ => true) = true) : ∃ s t, P s ∧ step s = .next t := by
  obtain ⟨t, ht⟩ := next_of h
  exact ⟨s, t, hs, ht⟩

/-- Both FSMs of P2's block in the state of a code, as in a run. -/
def inStep (code : Nat) : State :=
  fsms s2 code code (decide (code = 0))

theorem witness_DecodeOfEncodeIsTheOperation :
    Instr.wf Config.scenario .decBit9 = true ∧ Instr.wf { p1 with N := 16 } (.rspBitN 15) = true ∧
    Instr.wf { p1 with rspAbort := true } .rspAbort = true ∧
    Instr.wf Config.scenario .unusedDsel14 = true := by
  decide +kernel

theorem witness_ResetBitSelectsReset :
    (∀ f ∈ [Format.dsel, .rsel, .csel, .asel, .qsel, .hsel],
      2 ^ (f.width p1 - 1) ≤ 2 ^ (f.width p1 - 1) ∧ 2 ^ (f.width p1 - 1) < 2 ^ f.width p1 ∧
      2 ^ (f.width p1 - 1) ≤ 2 ^ f.width p1 - 1 ∧ 2 ^ f.width p1 - 1 < 2 ^ f.width p1) ∧
    { s1 with rst := true }.rst = true := by
  decide +kernel

theorem witness_DecoderStateSelectsOperation :
    (∀ code ∈ [0, 1, 2, 3, 4, 12, 13, 14, 15],
      (fsms s1 code 0 true).rst = false ∧
      (fsms s1 code 0 true).sys.decState < 2 ^ (fsms s1 code 0 true).cfg.SW) ∧
    2 ≤ s1.cfg.N ∧ s1.cfg.N + 3 - 9 = 4 ∧ s1.cfg.N + 3 - 1 = 12 ∧ s1.cfg.N + 3 = 13 ∧
    s1.cfg.N + 4 ≤ 14 := by
  decide +kernel

theorem witness_ResponderStateSelectsOperation :
    (∀ code ∈ [0, 1, 2, 3, 4, 12, 13, 14, 15], ∀ cs : Bool,
      (fsms s1 0 code cs).rst = false ∧ (fsms s1 0 code cs).cs = cs ∧
      (fsms s1 0 code cs).adc.rspState < 2 ^ (fsms s1 0 code cs).cfg.SW ∧
      (aborting (fsms s1 0 code cs)).cfg.rspAbort = true ∧
      ((fsms s1 0 code cs).cfg.rspAbort && (fsms s1 0 code cs).cs) = false) ∧ 2 ≤ s1.cfg.N := by
  decide +kernel

theorem witness_DeviceSelectReadOnlyInIdle :
    (∀ code ∈ [1, 13, 15], (fsms s1 0 code true).cfg.rspAbort = false ∧
      (fsms s1 0 code true).adc.rspState ≠ idleCode ∧
      (fsms s1 0 code true).adc.rspState < 2 ^ s1.cfg.SW) ∧
    nextIs (perform .rsel (fsms s1 0 1 true)) (fun _ => true) ∧
    faultIs (perform .rsel (fsms s1 0 15 true)) (.mf2UnreachableState .responder 15) := by
  decide +kernel

theorem witness_StepRunsTheSelectedOperation :
    decode s1.cfg .dsel (selector .dsel s1) = .ok .decIdle ∧ s1.stage = .run ∧
    (genAt 8).stage = .genSelect ∧ decode (genAt 8).cfg .gsel (selector .gsel (genAt 8)) = .ok .genFlip ∧
    ((State.unbuilt toy.proposal).setStage .genInit).stage = .genInit ∧
    ((genAt 0).setStage .genEmit).stage = .genEmit := by
  refine ⟨reads_ok ?_, ?_, ?_, reads_ok ?_, ?_, ?_⟩ <;> decide +kernel

theorem witness_EdgesRunSelectedOperations :
    decode s2.cfg .dsel (selector .dsel s2) = .ok .decIdle ∧
    decode s2.cfg .asel (selector .asel s2) = .ok .accHold ∧
    decode s2.cfg .qsel (selector .qsel s2) = .ok .qNowrite ∧
    decode s2.cfg .hsel (selector .hsel s2) = .ok .hRdwait ∧
    decode s2.cfg .rsel (selector .rsel s2) = .ok .rspIdleHold ∧
    decode s2.cfg .csel (selector .csel s2) = .ok .rspCount := by
  refine ⟨reads_ok ?_, reads_ok ?_, reads_ok ?_, reads_ok ?_, reads_ok ?_, reads_ok ?_⟩ <;>
    decide +kernel

theorem witness_OperationsOfAnEdgeCommute :
    Instr.decIdle ≠ .reset ∧ Instr.qWriteAdv ≠ .reset ∧
    Instr.decIdle.format ≠ Instr.qWriteAdv.format ∧
    Instr.decIdle.format ∈ [Format.dsel, .asel, .qsel, .hsel, .fixed .qRead] ∧
    Instr.qWriteAdv.format ∈ [Format.dsel, .asel, .qsel, .hsel, .fixed .qRead] ∧
    nextIs (exec .decIdle s2) (fun _ => true) ∧ nextIs (exec .qWriteAdv s2) (fun _ => true) ∧
    Instr.rspIdleGo.format ≠ Instr.rspWrap.format ∧ Instr.rspIdleGo.format ∈ [Format.rsel, .csel] ∧
    Instr.rspWrap.format ∈ [Format.rsel, .csel] ∧ nextIs (exec .rspIdleGo s2) (fun _ => true) ∧
    nextIs (exec .rspWrap s2) (fun _ => true) := by
  decide +kernel

theorem witness_DecoderBitStatesComplete :
    9 < s1.cfg.N ∧ s2.cfg.N ≤ 4 ∧ 1 ≤ 3 ∧ 3 < s2.cfg.N ∧ 15 < { p1 with N := 16 }.N := by
  decide +kernel

theorem witness_CaptureWritesOneBit :
    0 < s2.cfg.N ∧ 3 < s2.cfg.N := by
  decide +kernel

theorem witness_AccumulatorModes :
    p2.accMode = .literal ∧ tiny.accMode = .corrected := by
  decide +kernel

theorem witness_DecoderIdleTick :
    ∃ s t : State, (s.Wf ∧ s.nextRst = false ∧ s.sys.decState = idleCode) ∧ step s = .next t :=
  with_next s2 (by decide +kernel) (by decide +kernel)

theorem witness_DecoderLeadInTick :
    ∀ code ∈ [wait1Code, wait2Code, nullbitCode],
      ∃ s t : State, (s.Wf ∧ s.nextRst = false ∧ s.sys.decState = code) ∧ step s = .next t := by
  intro code h
  fin_cases h
  · exact with_next (inStep 1) (by decide +kernel) (by decide +kernel)
  · exact with_next (inStep 2) (by decide +kernel) (by decide +kernel)
  · exact with_next (inStep 3) (by decide +kernel) (by decide +kernel)

theorem witness_DecoderBitTick :
    ∀ i ∈ [1, 3], ∃ s t : State, (s.Wf ∧ s.nextRst = false ∧ 1 ≤ i ∧ i < s.cfg.N ∧
      s.sys.decState = bitCode s.cfg i) ∧ step s = .next t := by
  intro i h
  fin_cases h
  · exact with_next (inStep 6) (by decide +kernel) (by decide +kernel)
  · exact with_next (inStep 4) (by decide +kernel) (by decide +kernel)

theorem witness_DecoderBit0Tick :
    ∃ s t : State, (s.Wf ∧ s.nextRst = false ∧ s.sys.decState = bitCode s.cfg 0) ∧
      step s = .next t :=
  with_next (inStep 7) (by decide +kernel) (by decide +kernel)

theorem witness_DataLineByState :
    2 ≤ s2.cfg.N ∧ (inStep 2).adc.rspState = wait2Code ∧ (inStep 3).adc.rspState = nullbitCode ∧
    (inStep 4).adc.rspState = bitCode s2.cfg 3 ∧ (inStep 7).adc.rspState = bitCode s2.cfg 0 := by
  decide +kernel

theorem witness_ResponderFsmOperationsComplete :
    s1.gtab[s1.adc.rspIdx]? = some (true, 421) ∧ (rspAt 1 0 3 0 false).gtab.length ≤ 3 ∧
    9 < s1.cfg.N ∧ s2.cfg.N ≤ 4 ∧ 1 ≤ 3 ∧ 3 < s2.cfg.N ∧ (aborting s1).cfg.rspAbort = true ∧
    s1.cfg.rspAbort = false := by
  decide +kernel

/-- In IDLE the device is deselected while the Decoder, out of step, is in BIT(0), and selected when the
Decoder is in IDLE too. -/
theorem witness_ResponderIdleTick :
    (∃ s t : State, (s.Wf ∧ s.nextRst = false ∧ s.adc.rspState = idleCode) ∧ step s = .next t) ∧
    (nextIs (step s2) fun t => !t.sys.decCs) ∧ (fsms s2 7 0 false).Wf ∧
    (nextIs (step (fsms s2 7 0 false)) fun t => t.sys.decCs) := by
  refine ⟨with_next s2 ?_ ?_, ?_, ?_, ?_⟩ <;> decide +kernel

theorem witness_ResponderLoadTick :
    ((inStep 1).Wf ∧ (inStep 1).nextRst = false ∧ (inStep 1).adc.rspState = wait1Code ∧
    (inStep 1).cfg.rspAbort = false ∧ (inStep 1).gtab[(inStep 1).adc.rspIdx]? = some (true, 3)) ∧
    ((aborting (inStep 1)).Wf ∧ (aborting (inStep 1)).sys.decCs = false ∧
    (aborting (inStep 1)).sys.decState ≠ bitCode p2 0) ∧
    ((holding s2 (inStep 1).sys { (inStep 1).adc with rspIdx := 9 }).Wf ∧
    (holding s2 (inStep 1).sys { (inStep 1).adc with rspIdx := 9 }).cfg.L ≤ 9) := by
  refine ⟨?_, ?_, ?_⟩ <;> decide +kernel

theorem witness_ResponderSerialTick :
    ∀ code ∈ [wait2Code, nullbitCode, bitCode p2 3, bitCode p2 1, bitCode p2 0],
      ∃ s t : State, (s.Wf ∧ s.nextRst = false ∧ s.cfg.rspAbort = false ∧ s.adc.rspState = code) ∧
        step s = .next t := by
  intro code h
  fin_cases h
  · exact with_next (inStep 2) (by decide +kernel) (by decide +kernel)
  · exact with_next (inStep 3) (by decide +kernel) (by decide +kernel)
  · exact with_next (inStep 4) (by decide +kernel) (by decide +kernel)
  · exact with_next (inStep 6) (by decide +kernel) (by decide +kernel)
  · exact with_next (inStep 7) (by decide +kernel) (by decide +kernel)

/-- With the option and the device selected nothing aborts either. -/
theorem witness_ResponderSerialTick_selected :
    (aborting (inStep 2)).Wf ∧ (nextIs (step (aborting (inStep 2))) fun t => !t.sys.decCs) := by
  decide +kernel

theorem witness_ResponderAbortTick :
    (aborting (inStep 7)).Wf ∧ (aborting (inStep 7)).nextRst = false ∧
    (aborting (inStep 7)).cfg.rspAbort = true ∧
    (nextIs (step (aborting (inStep 7))) fun t => t.sys.decCs) ∧
    (aborting (inStep 7)).adc.rspState ≠ idleCode ∧
    (aborting (inStep 7)).adc.rspCnt ≠ p2.C ∧ p1.rspAbort = false := by
  decide +kernel

/-- The same tick with the counter at C. -/
def abortAtC : State :=
  aborting (holding s2 (inStep 7).sys { (inStep 7).adc with rspCnt := 7 })

theorem witness_ResponderAbortTick_wrap :
    abortAtC.Wf ∧ abortAtC.nextRst = false ∧ abortAtC.cfg.rspAbort = true ∧
    (nextIs (step abortAtC) fun t => t.sys.decCs) ∧ abortAtC.adc.rspState ≠ idleCode ∧
    abortAtC.adc.rspCnt = abortAtC.cfg.C := by
  decide +kernel

theorem witness_ResponderCounterTick :
    (∃ s t : State, (s.Wf ∧ s.nextRst = false ∧ s.adc.rspCnt ≠ s.cfg.C) ∧ step s = .next t) ∧
    (∃ s t : State, (s.Wf ∧ s.nextRst = false ∧ s.adc.rspCnt = s.cfg.C) ∧ step s = .next t) :=
  ⟨with_next s2 (by decide +kernel) (by decide +kernel),
    with_next (holding s2 s2.sys { s2.adc with rspCnt := 7 }) (by decide +kernel) (by decide +kernel)⟩

/-- P2's block with a pulse and this count. -/
def pulsing (cnt : Nat) : State :=
  holding s2 { s2.sys with decValid := true, decSample := -8, accCnt := cnt } s2.adc

theorem witness_AccumulatorTick :
    (∃ s t : State, (s.Wf ∧ s.nextRst = false ∧ s.sys.decValid = false) ∧ step s = .next t) ∧
    (∃ s t : State, (s.Wf ∧ s.nextRst = false ∧ s.sys.decValid = true ∧ s.sys.accCnt = s.cfg.LIM) ∧
      step s = .next t) ∧
    (∃ s t : State, (s.Wf ∧ s.nextRst = false ∧ s.sys.decValid = true ∧ s.sys.accCnt ≠ s.cfg.LIM) ∧
      step s = .next t) :=
  ⟨with_next s2 (by decide +kernel) (by decide +kernel),
    with_next (pulsing 1) (by decide +kernel) (by decide +kernel),
    with_next (pulsing 0) (by decide +kernel) (by decide +kernel)⟩

theorem witness_AccumulatorEmitsGroupSum :
    s2.cfg.Legal ∧ s2.sys.accCnt = 0 ∧ s2.sys.accSum = 0 ∧ [(7 : Int), -8].length = s2.cfg.D + 1 ∧
    s2.cfg.accMode = .literal ∧ fitsSigned s2.cfg.W ([(7 : Int), -8].sum) = true ∧
    tiny.Legal ∧ tiny.accMode = .corrected ∧ [(1 : Int)].length = tiny.D := by
  decide +kernel

theorem witness_QueueOperationsComplete :
    s2.sys.qWr < s2.sys.qmem.length ∧ s2.sys.qmem[s2.sys.hRd]? = some 0 ∧
    (holding s2 { s2.sys with hRd := 2, qWr := 2 } s2.adc).sys.qmem.length ≤ 2 := by
  decide +kernel

theorem witness_TruncationIsFloorDivision :
    1 ≤ p2.T ∧ p2.T ≤ { p2 with D := 4 }.W ∧ fitsSigned { p2 with D := 4 }.W (-32) = true ∧
    p2.truncSelect = .msb ∧ { p2 with truncSelect := .lsb }.truncSelect = .lsb := by
  decide +kernel

/-- P2's block with a sum to write at this cursor. -/
def writing (wr : Nat) : State :=
  holding s2 { s2.sys with accValid := true, accOut := -8, qWr := wr } s2.adc

theorem witness_QueueWriteTick :
    (∃ s t : State, (s.Wf ∧ s.nextRst = false ∧ s.sys.accValid = false) ∧ step s = .next t) ∧
    (∃ s t : State, (s.Wf ∧ s.nextRst = false ∧ s.sys.accValid = true ∧ s.sys.qWr = s.cfg.K - 1) ∧
      step s = .next t) ∧
    (∃ s t : State, (s.Wf ∧ s.nextRst = false ∧ s.sys.accValid = true ∧ s.sys.qWr ≠ s.cfg.K - 1) ∧
      step s = .next t) :=
  ⟨with_next s2 (by decide +kernel) (by decide +kernel),
    with_next (writing 1) (by decide +kernel) (by decide +kernel),
    with_next (writing 0) (by decide +kernel) (by decide +kernel)⟩

/-- The block of K = 3, whose read cursor reaches an index without a slot. -/
def threeSlots (rd : Nat) : State :=
  let s := State.powerOn { p2 with K := 3, qmemInit := [0, 0, 0] } table2
  holding s { s.sys with hRd := rd } s.adc

/-- P2's block about to load an entry past the table. -/
def pastTable : State :=
  holding s2 (inStep 1).sys { (inStep 1).adc with rspIdx := 9 }

theorem witness_QueueReadPort :
    (∃ s t : State, (s.Wf ∧ s.sys.hRd < s.cfg.K) ∧ step s = .next t) ∧
    (∃ s t : State, (s.Wf ∧ s.cfg.K ≤ s.sys.hRd) ∧ step s = .next t) ∧
    pastTable.Wf ∧ pastTable.sys.hRd < pastTable.cfg.K ∧
    faultIs (step pastTable) (.mf1OutOfTable 9 1) :=
  ⟨with_next (threeSlots 2) (by decide +kernel) (by decide +kernel),
    with_next (threeSlots 3) (by decide +kernel) (by decide +kernel), by decide +kernel⟩

theorem witness_QueueRingOrder :
    s2.Wf ∧ s2.sys.qWr = 0 ∧ nextIs (acceptWrites [1, 2, 3] s2) (fun _ => true) ∧
    [(1 : Int), 2, 3][1]? = some 2 ∧ [(1 : Int), 2, 3].length ≤ 1 + s2.cfg.K ∧
    [(1 : Int), 2, 3][2]? = some 3 := by
  decide +kernel

theorem witness_ReadCursorTick :
    (∃ s t : State, (s.Wf ∧ s.nextRst = false ∧ s.sys.hRdcnt ≠ s.cfg.rdPeriod - 1) ∧
      step s = .next t) ∧
    (∃ s t : State, (s.Wf ∧ s.nextRst = false ∧ s.sys.hRdcnt = s.cfg.rdPeriod - 1) ∧
      step s = .next t) :=
  ⟨with_next s2 (by decide +kernel) (by decide +kernel),
    with_next (holding s2 { s2.sys with hRdcnt := 7 } s2.adc) (by decide +kernel) (by decide +kernel)⟩

theorem witness_SysOperationsFrame :
    ∀ i ∈ [Instr.decBit0, .accEmit, .qWriteWrap, .hRdadv, .qRead],
      i ≠ .reset ∧ nextIs (exec i s2) (fun _ => true) ∧
      i.format ∈ [Format.dsel, .asel, .qsel, .hsel, .fixed .qRead] := by
  decide +kernel

theorem witness_AdcOperationsFrame :
    ∀ i ∈ [Instr.rspWait1, .rspBit0, .rspWrap],
      nextIs (exec i s2) (fun _ => true) ∧ i.format ∈ [Format.rsel, .csel] := by
  decide +kernel

theorem witness_TickLeavesConfigAndTable :
    (∃ s t : State, s.stage = .run ∧ step s = .next t) ∧
    (∃ s t : State, s.stage = .construct irrational.proposal ∧ step s = .next t) ∧
    ∃ s t : State, s.stage = .genSelect ∧ step s = .next t :=
  ⟨with_next s2 (by decide +kernel) (by decide +kernel),
    with_next (State.unbuilt irrational.proposal) (by decide +kernel) (by decide +kernel),
    with_next (genAt 8) (by decide +kernel) (by decide +kernel)⟩

theorem witness_ResetTickResetsBothDomains :
    midReset.stage = .run ∧ midReset.nextRst = true := by
  decide +kernel

theorem witness_PowerOnState :
    1 ≤ p2.K ∧ 1 < p2.K ∧ p2.qmemInit[1]? = some 0 := by
  decide +kernel

theorem witness_UnusedCodeFaultsTheTick :
    (fsms s1 14 15 true).stage = .run ∧ (fsms s1 14 15 true).nextRst = false ∧
    s1.cfg.N + 4 ≤ (fsms s1 14 15 true).sys.decState ∧ 14 < 2 ^ s1.cfg.SW ∧
    (fsms s1 13 15 true).sys.decState ≤ s1.cfg.N + 3 ∧ s1.sys.qWr < s1.sys.qmem.length ∧
    s1.cfg.N + 4 ≤ (fsms s1 13 15 true).adc.rspState ∧ 15 < 2 ^ s1.cfg.SW := by
  decide +kernel

/-- A width of one bit: the scaled cosine is 0 whatever the cosine is, so the sample is the bias. -/
theorem genSample_one_bit {c : Config} (h : c.N = 1) (t : Nat) (v : GenVars) :
    genSample c t v = c.quantBias := by
  have h0 : quant c.quantRound 0 = 0 := by
    cases c.quantRound <;> decide +kernel
  have h1 : cosTurns c (genArg c t v) * (((2 ^ (c.N - 1) : Nat) : Rat) - 1) = 0 := by
    rw [h]
    simp
  unfold genSample quantise
  rw [h1, h0, Int.zero_add]

theorem witness_GeneratorOperationsComplete :
    1 ≤ toy.B ∧ toy.bits[0]? = some true ∧ { toy with B := 0 }.B = 0 ∧
    genSym (genAt 8).cfg 8 < toy.B ∧ toy.bits[1]? = some false ∧
    toy.B ≤ genSym toy 16 ∧ (genAt 0).genT ≤ (genAt 0).gtab.length ∧
    fitsSigned 1 (genSample { toy with N := 1 } 0 (genStart true)) = true ∧
    fitsSigned 1 (genSample { toy with N := 1, quantBias := 5 } 0 (genStart true)) = false := by
  rw [genSample_one_bit rfl, genSample_one_bit rfl]
  decide +kernel

theorem witness_PhaseContinuousAtFlip : 1 ≤ (genAt 8).genT := by
  decide +kernel

theorem witness_UnbiasedSamplesFit : 1 ≤ toy.N ∧ toy.quantBias = 0 := by
  decide +kernel

/-- A value above zero, one below it, and a tie. -/
theorem witness_QuantisersRoundAsStated :
    (0 : Rat) ≤ 5 / 2 ∧ (-5 / 2 : Rat) < 0 ∧ (5 / 2 : Rat) - roundHalfEven (5 / 2) = 1 / 2 ∧
    (roundHalfEven (7 / 2) : Rat) - 7 / 2 = 1 / 2 := by
  decide +kernel

/-- P2's configuration is in its legal ranges. -/
theorem p2_inRange : p2.InRange where
  sampleWidth := by decide +kernel
  cycles := by decide +kernel
  decimation := by decide +kernel
  capacity := by decide +kernel
  symbols := by decide +kernel
  perBit := by decide +kernel
  entryWidth := by decide +kernel
  entryFits := by decide +kernel
  clock := by decide +kernel
  baud := by decide +kernel
  toneOne := by simp [p2, Tone.value]
  toneZero := by simp [p2, Tone.value]
  readPeriod := by decide +kernel
  bitCount := by intro b h; cases h

theorem witness_LegalParametersAreInRange : p2.Legal ∧ p2.InRange ∧ irrational.Legal :=
  ⟨by decide +kernel, p2_inRange, by decide +kernel⟩

/-- What holds of a list's first entries holds of an entry found there. -/
theorem of_take {α : Type} {l : List α} {q : α → Prop} {n : Nat} (h : ∀ e ∈ l.take n, q e)
    {i : Nat} {e : α} (hi : i < n) (he : l[i]? = some e) : q e :=
  h e (List.mem_of_getElem? (i := i) (by rw [List.getElem?_take_of_lt hi, he]))

/-- Entry k of the report order is this one, holds, and is the first that does. -/
def FirstToReport (p : Proposal) (k : Nat) (r : Refusal) : Prop :=
  ∃ bad, p.reportOrder[k]? = some (bad, r) ∧ bad ∧
    ∀ j b q, j < k → p.reportOrder[j]? = some (b, q) → ¬ b

theorem first_to_report {p : Proposal} {k : Nat} {r : Refusal} {bad : Prop}
    (hk : p.reportOrder[k]? = some (bad, r)) (hb : bad)
    (h : ∀ e ∈ p.reportOrder.take k, ¬ e.1) : FirstToReport p k r :=
  ⟨bad, hk, hb, fun _ _ _ hj he => of_take (q := fun e => ¬ e.1) h hj he⟩

/-- A proposal for each entry of the report order, which fails there first. -/
def failing : List Proposal :=
  [{ p2.proposal with D := 0 }, { p2.proposal with K := 0 }, { p2.proposal with B := 0 },
    { p2.proposal with P := 0 }, { p2.proposal with D := -1 }, { p2.proposal with K := -1 },
    { p2.proposal with B := -1 }, { p2.proposal with P := -1 }, { p2.proposal with N := 1 }] ++
  [{ p2.proposal with C := 0 }, { p2.proposal with F := 0 }, { p2.proposal with R := 0 },
    { p2.proposal with f1 := .rational 0 }, { p2.proposal with f0 := .rational (-1) },
    { p2.proposal with rdPeriod := 0 }, { p2.proposal with source := .bits [true] },
    { p2.proposal with T := 0 }, { p2.proposal with T := 5 }]

theorem witness_ConstructionReportsFirstError (k : Nat) (hk : k < 18) :
    ∃ p r, failing[k]? = some p ∧ FirstToReport p k r := by
  interval_cases k <;> refine ⟨_, _, rfl, first_to_report rfl ?_ ?_⟩ <;>
    simp [Proposal.reportOrder, Config.proposal, p2, Tone.value, Proposal.toConfig, Config.W, clog2]

/-- The toy without a bias, and with one under which every sample still fits. -/
theorem witness_ConstructionRunsTheGenerator :
    (toy.Legal ∧ toy.source = .bits [true, false] ∧ (∀ t, t < toy.L → genSym toy t < toy.B) ∧
      toy.quantBias = 0) ∧
    toy.QueueInitFits ∧
    ((biased (-1)).Legal ∧ (biased (-1)).quantBias ≠ 0 ∧
      ∀ e ∈ genEntries (biased (-1)), fitsSigned (biased (-1)).N e.2 = true) := by
  refine ⟨?_, ?_, ?_⟩
  · decide +kernel
  · unfold Config.QueueInitFits
    decide +kernel
  · decide +kernel

theorem witness_ConstructionRunsTheGenerator_queueInit :
    ∃ i v, i < toy.K ∧ { toy with qmemInit := [0, 8] }.qmemInit[i]? = some v ∧
      fitsSigned toy.T v = false ∧
      ∀ j u, j < i → { toy with qmemInit := [0, 8] }.qmemInit[j]? = some u →
        fitsSigned toy.T u = true :=
  ⟨1, 8, by decide +kernel, rfl, by decide +kernel, fun _ _ hj hu =>
    of_take (q := fun u => fitsSigned toy.T u = true) (n := 1) (by decide +kernel) hj hu⟩

/-- Index 16, the first without a symbol (GEN-5 in small). -/
theorem witness_ConstructionRunsTheGenerator_symbol :
    (overrun.Legal ∧ 16 < overrun.L ∧ overrun.B ≤ genSym overrun 16 ∧
      ∀ u, u < 16 → genSym overrun u < overrun.B) ∧
    ∀ u e, u < 16 → (genEntries overrun)[u]? = some e → fitsSigned overrun.N e.2 = true :=
  ⟨by decide +kernel, fun _ _ hu he =>
    of_take (q := fun e => fitsSigned overrun.N e.2 = true) (n := 16) (by decide +kernel) hu he⟩

/-- Index 0 with bias 1 (CE-5), and index 4, the first of cosine -1, with bias -2. -/
theorem witness_ConstructionRunsTheGenerator_sample :
    ((genEntries (biased 1))[0]? = some (true, 8) ∧ fitsSigned (biased 1).N 8 = false) ∧
    ((biased (-2)).Legal ∧ (genEntries (biased (-2)))[4]? = some (true, -9) ∧
      fitsSigned (biased (-2)).N (-9) = false ∧
      ∀ u, u ≤ 4 → genSym (biased (-2)) u < (biased (-2)).B) ∧
    ∀ u e, u < 4 → (genEntries (biased (-2)))[u]? = some e →
      fitsSigned (biased (-2)).N e.2 = true :=
  ⟨by decide +kernel, by decide +kernel, fun _ _ hu he =>
    of_take (q := fun e => fitsSigned (biased (-2)).N e.2 = true) (n := 4) (by decide +kernel) hu he⟩

/-- The smallest block given this table. -/
def givenTiny (t : List (Int × Int)) : Config :=
  { tiny with source := .given t }

theorem witness_ConstructionTakesAGivenTable :
    ((givenTiny [(1, 1)]).Legal ∧ [((1 : Int), (1 : Int))].length ≠ (givenTiny [(1, 1)]).L) ∧
    (tiny.Legal ∧ tiny.source = .given [(1, 1), (0, -2)] ∧
      [((1 : Int), (1 : Int)), (0, -2)].length = tiny.L ∧
      ∀ e ∈ [((1 : Int), (1 : Int)), (0, -2)],
        (e.1 = 0 ∨ e.1 = 1) ∧ fitsSigned tiny.N e.2 = true) ∧
    tiny.QueueInitFits := by
  refine ⟨?_, ?_, ?_⟩
  · decide +kernel
  · decide +kernel
  · unfold Config.QueueInitFits
    decide +kernel

theorem witness_ConstructionTakesAGivenTable_bit :
    ((givenTiny [(1, 2), (2, 0)]).Legal ∧ (givenTiny [(1, 2), (2, 0)]).L = 2 ∧
      [((1 : Int), (2 : Int)), (2, 0)][1]? = some (2, 0)) ∧
    ∀ u e, u < 1 → [((1 : Int), (2 : Int)), (2, 0)][u]? = some e → e.1 = 0 ∨ e.1 = 1 :=
  ⟨by decide +kernel, fun _ _ hu he =>
    of_take (q := fun e => e.1 = 0 ∨ e.1 = 1) (n := 1) (by decide +kernel) hu he⟩

theorem witness_ConstructionTakesAGivenTable_value :
    ((givenTiny [(1, 1), (0, 2)]).Legal ∧
      (∀ e ∈ [((1 : Int), (1 : Int)), (0, 2)], e.1 = 0 ∨ e.1 = 1) ∧
      [((1 : Int), (1 : Int)), (0, 2)][1]? = some (0, 2) ∧ fitsSigned tiny.N 2 = false) ∧
    ∀ u e, u < 1 → [((1 : Int), (1 : Int)), (0, 2)][u]? = some e → fitsSigned tiny.N e.2 = true :=
  ⟨by decide +kernel, fun _ _ hu he =>
    of_take (q := fun e => fitsSigned tiny.N e.2 = true) (n := 1) (by decide +kernel) hu he⟩

theorem witness_ConstructionTakesAGivenTable_queueInit :
    (1 < tiny.K ∧ { tiny with qmemInit := [0, 2] }.qmemInit[1]? = some 2 ∧
      fitsSigned tiny.T 2 = false) ∧
    ∀ j u, j < 1 → { tiny with qmemInit := [0, 2] }.qmemInit[j]? = some u →
      fitsSigned tiny.T u = true :=
  ⟨by decide +kernel, fun _ _ hj hu =>
    of_take (q := fun u => fitsSigned tiny.T u = true) (n := 1) (by decide +kernel) hj hu⟩

theorem witness_WellFormedTickCompletes : s2.Wf ∧ midReset.Wf ∧ (threeSlots 3).Wf := by
  decide +kernel

theorem witness_StepKeepsWellFormed : ∃ s t : State, s.Wf ∧ step s = .next t :=
  with_next midReset (by decide +kernel) (by decide +kernel)

theorem witness_PowerOnIsWellFormed : p2.Legal ∧ TableWf p2 table2 ∧ p2.QueueInitFits := by
  unfold Config.QueueInitFits
  decide +kernel

theorem witness_StepKeepsLockstep :
    ∃ s t : State, (s.Wf ∧ s.Lockstep) ∧ step s = .next t :=
  with_next (inStep 7) (by decide +kernel) (by decide +kernel)

/-- P2's block in BIT(2), bit 3 of the held sample captured. -/
def capturing : State :=
  holding s2 { s2.sys with decState := 5, decCs := false, decSample := -8 }
    { s2.adc with rspState := 5, rspHoldSample := 13 }

theorem captured_capturing : capturing.Captured := by
  unfold State.Captured
  decide +kernel

theorem witness_StepKeepsCaptured :
    ∃ s t : State, (s.Wf ∧ s.Lockstep ∧ s.Captured) ∧ step s = .next t :=
  with_next capturing ⟨by decide +kernel, by decide +kernel, captured_capturing⟩ (by decide +kernel)

/-- S_0 of the smallest block, and another reset state: after a reset tick, its queue written. -/
def sTiny : State := State.powerOn tiny tableTiny

/-- The smallest block with these registers, its queue written before the last reset. -/
def tinyWith (r : SysRegs) (a : AdcRegs) : State :=
  holding sTiny { r with qmem := [1, -2] } a

/-- Six ticks after it: the first pulse. -/
def tiny6 : State :=
  tinyWith { sTiny.sys with decValid := true, decSample := 1, hRdcnt := 6 }
    { rspState := 0, rspCnt := 0, rspIdx := 1, rspHoldSample := 1, rspHoldBit := true }

/-- Seven ticks after it: the first sum. -/
def tiny7 : State :=
  tinyWith
    { sTiny.sys with
      decState := 1, decCs := false, decSample := 1, hRdcnt := 7, accOut := 1, accValid := true }
    { rspState := 1, rspCnt := 1, rspIdx := 1, rspHoldSample := 1, rspHoldBit := true }

theorem tiny_atReset : sTiny.AtReset ∧ (tinyWith sTiny.sys AdcRegs.reset).AtReset := by
  unfold State.AtReset State.Running
  decide +kernel

theorem tiny_noReset (k : Nat) : sTiny.NoResetFor k := by
  simp [State.NoResetFor, sTiny, State.powerOn]

theorem tiny_onSchedule : tiny6.OnSchedule 6 ∧ tiny7.OnSchedule 7 := by
  have first_load (j k : Nat) (hk : k < 8) (h : 2 + j * (tiny.N + 4) ≤ k) :
      loadIndex tiny j < tiny.L := by
    obtain rfl : j = 0 := by change 2 + j * 6 ≤ k at h; omega
    decide +kernel
  unfold State.OnSchedule State.Running
  refine ⟨⟨?_, ?_, ?_, ?_, ?_, ?_, ?_, ?_, fun j => first_load j 6 (by omega)⟩,
    ⟨?_, ?_, ?_, ?_, ?_, ?_, ?_, ?_, fun j => first_load j 7 (by omega)⟩⟩ <;> decide +kernel

/-- The first transfer's entry is the only one loaded before tick 8. -/
theorem first_transfer {k : Nat} (hk : k < 8) {p : Nat → Prop} (h0 : p 0) :
    ∀ j, 2 + j * (tiny.N + 4) ≤ k → k < 2 + (j + 1) * (tiny.N + 4) → p j := by
  intro j h _
  obtain rfl : j = 0 := by change 2 + j * 6 ≤ k at h; omega
  exact h0

theorem tiny_onTransfers : tiny6.OnTransfers 6 ∧ tiny7.OnTransfers 7 := by
  refine ⟨⟨tiny_onSchedule.1, ?_, ⟨fun _ => ⟨0, rfl⟩, fun _ => rfl⟩,
      first_transfer (by omega) (by decide +kernel)⟩,
    ⟨tiny_onSchedule.2, ?_, ⟨nofun, fun ⟨j, h⟩ => ?_⟩,
      first_transfer (by omega) (by decide +kernel)⟩⟩
  · unfold State.Captured
    decide +kernel
  · unfold State.Captured
    decide +kernel
  · change 7 = (j + 1) * 6 at h
    omega

theorem tiny_onSums : tiny7.OnSums 7 := by
  refine ⟨tiny_onTransfers.2, by decide +kernel, by decide +kernel,
    ⟨fun _ => ⟨0, rfl⟩, fun _ => rfl⟩, fun m h _ => ?_⟩
  obtain rfl : m = 0 := by change (m + 1) * 1 * 6 + 1 ≤ 7 at h; omega
  decide +kernel

theorem witness_RunSchedule :
    (∃ s t : State, (s.Running ∧ s.nextRst = true) ∧ step s = .next t) ∧
    (∃ s t : State, (s.OnSchedule 7 ∧ s.nextRst = false) ∧ step s = .next t) ∧
    (sTiny.AtReset ∧ sTiny.NoResetFor 7 ∧ ∃ t, stepsFrom 7 sTiny = .next t) :=
  ⟨with_next midReset (by unfold State.Running; decide +kernel) (by decide +kernel),
    with_next tiny7 ⟨tiny_onSchedule.2, by decide +kernel⟩ (by decide +kernel),
    tiny_atReset.1, tiny_noReset 7, next_of (by decide +kernel)⟩

theorem witness_PulsesCarryTheTable :
    (∃ s t : State, (s.OnTransfers 7 ∧ s.nextRst = false) ∧ step s = .next t) ∧
    (tiny6.OnTransfers 6 ∧ 6 = (0 + 1) * (tiny6.cfg.N + 4) ∧ tiny6.cfg.C + 1 = tiny6.cfg.N + 4) ∧
    (sTiny.AtReset ∧ sTiny.NoResetFor 6 ∧ nextIs (stepsFrom 6 sTiny) fun t => t.sys.decValid) :=
  ⟨with_next tiny7 ⟨tiny_onTransfers.2, by decide +kernel⟩ (by decide +kernel),
    ⟨tiny_onTransfers.1, by decide +kernel⟩, tiny_atReset.1, tiny_noReset 6, by decide +kernel⟩

theorem witness_EmitsCarryGroupSums :
    (∃ s t : State, (s.OnSums 7 ∧ s.nextRst = false) ∧ step s = .next t) ∧
    7 = (0 + 1) * (tiny7.cfg.LIM + 1) * (tiny7.cfg.N + 4) + 1 ∧
    (sTiny.AtReset ∧ sTiny.NoResetFor 7 ∧ nextIs (stepsFrom 7 sTiny) fun t => t.sys.accValid) :=
  ⟨with_next tiny7 ⟨tiny_onSums, by decide +kernel⟩ (by decide +kernel), by decide +kernel,
    tiny_atReset.1, tiny_noReset 7, by decide +kernel⟩

theorem witness_AlignedRunEndsAtTableEnd :
    sTiny.AtReset ∧ sTiny.cfg.C + 1 = sTiny.cfg.N + 4 ∧
    sTiny.NoResetFor (2 + sTiny.cfg.L * (sTiny.cfg.N + 4)) :=
  ⟨tiny_atReset.1, by decide +kernel, tiny_noReset _⟩

end Sys2Proof.Tests
end

section
/-!
PROOFS. The operations of one edge in any order (R13, R79). Each row's effect is one write of its own
component, the same whatever the other components have pending already, and writes of different components
act on disjoint registers.
-/

namespace Sys2Proof.Machine

/-! ### The writes of a component -/

/-- What one operation of a tick writes, with the values written; `none` keeps the register's pending
value. The Queue's read is evaluated where it is performed, for it counts the free values (R73, R213). -/
inductive Write
  | dec (state : Nat) (cs valid : Option Bool) (sample : Option Int)
  | acc (valid : Bool) (cnt : Option Nat) (sum out : Option Int)
  | queue (store : Option (Nat × Int)) (wr : Option Nat)
  | read
  | cursor (cnt : Nat) (rd : Option Nat)
  | rsp (state : Option Nat) (hold : Option (Bool × Nat))
  | count (cnt : Nat) (idx : Option Nat)

/-- The selector format of the component that makes the write. -/
def Write.format : Write → Format
  | .dec .. => .dsel
  | .acc .. => .asel
  | .queue .. => .qsel
  | .read => .fixed .qRead
  | .cursor .. => .hsel
  | .rsp .. => .rsel
  | .count .. => .csel

/-- The write made on top of what is pending. -/
def Write.apply (w : Write) (s : State) : State :=
  match w with
  | .dec state cs valid sample =>
    s.setSysNext { s.sysNext with
      decState := state
      decCs := cs.getD s.sysNext.decCs
      decValid := valid.getD s.sysNext.decValid
      decSample := sample.getD s.sysNext.decSample }
  | .acc valid cnt sum out =>
    s.setSysNext { s.sysNext with
      accValid := valid
      accCnt := cnt.getD s.sysNext.accCnt
      accSum := sum.getD s.sysNext.accSum
      accOut := out.getD s.sysNext.accOut }
  | .queue store wr =>
    s.setSysNext { s.sysNext with
      qmem := store.elim s.sysNext.qmem fun e => Memory.write s.sysNext.qmem e.1 e.2
      qWr := wr.getD s.sysNext.qWr }
  | .read => readUpd s
  | .cursor cnt rd =>
    s.setSysNext { s.sysNext with hRdcnt := cnt, hRd := rd.getD s.sysNext.hRd }
  | .rsp state hold =>
    s.setAdcNext { s.adcNext with
      rspState := state.getD s.adcNext.rspState
      rspHoldBit := hold.elim s.adcNext.rspHoldBit Prod.fst
      rspHoldSample := hold.elim s.adcNext.rspHoldSample Prod.snd }
  | .count cnt idx =>
    s.setAdcNext { s.adcNext with rspCnt := cnt, rspIdx := idx.getD s.adcNext.rspIdx }

/-- Different components write disjoint registers. -/
theorem Write.apply_comm {w v : Write} (h : w.format ≠ v.format) (s : State) :
    w.apply (v.apply s) = v.apply (w.apply s) := by
  cases w with
  | dec => cases v with
    | dec => exact absurd rfl h
    | _ => rfl
  | acc => cases v with
    | acc => exact absurd rfl h
    | _ => rfl
  | queue => cases v with
    | queue => exact absurd rfl h
    | _ => rfl
  | read => cases v with
    | read => exact absurd rfl h
    | _ => rfl
  | cursor => cases v with
    | cursor => exact absurd rfl h
    | _ => rfl
  | rsp => cases v with
    | rsp => exact absurd rfl h
    | _ => rfl
  | count => cases v with
    | count => exact absurd rfl h
    | _ => rfl

/-! ### Operations that read pre-edge values only -/

/-- The fields the operations of a tick write; everything else in a state is a pre-edge value (R13). -/
structure Pending where
  sysNext : SysRegs
  adcNext : AdcRegs
  qOutRead : Int
  draws : Nat

/-- What is pending in s. -/
def State.pending (s : State) : Pending where
  sysNext := s.sysNext
  adcNext := s.adcNext
  qOutRead := s.qOutRead
  draws := s.draws

/-- The pre-edge values of s with p pending. -/
def State.withPending (s : State) (p : Pending) : State :=
  { s with sysNext := p.sysNext, adcNext := p.adcNext, qOutRead := p.qOutRead, draws := p.draws }

theorem State.withPending_pending (s : State) : s.withPending s.pending = s := rfl

/-- A write keeps every pre-edge value. -/
theorem Write.apply_eq_withPending (w : Write) (s : State) :
    w.apply s = s.withPending (w.apply s).pending := by
  cases w <;> rfl

/-- From the pre-edge values of s the operation makes one write of the component of f, the same whatever is
pending. -/
def Writes (f : Format) (op : State → Result) (s : State) : Prop :=
  ∃ w : Write, w.format = f ∧ ∀ p, op (s.withPending p) = .next (w.apply (s.withPending p))

/-- Such operations of different components may be performed in either order. -/
theorem Writes.comm {f g : Format} {op op' : State → Result} {s a b : State} (h : Writes f op s)
    (h' : Writes g op' s) (hfg : f ≠ g) (ha : op s = .next a) (hb : op' s = .next b) :
    op' a = op b := by
  obtain ⟨w, rfl, hw⟩ := h
  obtain ⟨v, rfl, hv⟩ := h'
  obtain rfl : w.apply s = a := by simpa [s.withPending_pending, ha] using (hw s.pending).symm
  obtain rfl : v.apply s = b := by simpa [s.withPending_pending, hb] using (hv s.pending).symm
  calc op' (w.apply s)
      = .next (v.apply (w.apply s)) := by rw [w.apply_eq_withPending s, hv]
    _ = .next (w.apply (v.apply s)) := by rw [Write.apply_comm hfg]
    _ = op (v.apply s) := by rw [v.apply_eq_withPending s, hw]

/-! ### Each row of the table -/

/-- A bit row that completes is one of a bit the width has (R106). -/
theorem bit_lt_of_decBitOp_next {i : Nat} {s t : State} (h : decBitOp i s = .next t) :
    1 ≤ i ∧ i < s.cfg.N := by
  by_contra hi
  simp [decBitOp, if_neg hi] at h

theorem bit_lt_of_rspBitOp_next {i : Nat} {s t : State} (h : rspBitOp i s = .next t) :
    1 ≤ i ∧ i < s.cfg.N := by
  by_contra hi
  simp [rspBitOp, if_neg hi] at h

/-- A queue write that completes has a cursor that names a slot (log entry 19). -/
theorem qWr_lt_of_queueWrite_next {wr : Nat} {s t : State} (h : queueWrite wr s = .next t) :
    s.sys.qWr < s.sys.qmem.length := by
  by_contra hq
  simp [queueWrite, if_neg hq] at h

/-- DEC.BIT(i) (R164). -/
theorem writes_decBitOp {s t : State} (i : Nat) (h : decBitOp i s = .next t) :
    Writes .dsel (decBitOp i) s :=
  ⟨.dec (bitCode s.cfg (i - 1)) none none (some (captured s i)), rfl,
    fun _ => if_pos (bit_lt_of_decBitOp_next h)⟩

/-- RSP.BIT(i) (R134). -/
theorem writes_rspBitOp {s t : State} (i : Nat) (h : rspBitOp i s = .next t) :
    Writes .rsel (rspBitOp i) s :=
  ⟨.rsp (some (bitCode s.cfg (i - 1))) none, rfl, fun _ => if_pos (bit_lt_of_rspBitOp_next h)⟩

/-- RSP.WAIT1 (R131): the load takes the table entry at the pre-edge index. -/
theorem writes_execRspWait1 {s t : State} (h : execRspWait1 s = .next t) :
    Writes .rsel execRspWait1 s := by
  cases he : tableRead s.gtab s.adc.rspIdx with
  | none => simp [execRspWait1, he] at h
  | some e =>
    refine ⟨.rsp (some wait2Code) (some (e.1, heldPattern s.cfg e.2)), rfl, fun p => ?_⟩
    have hp : tableRead (s.withPending p).gtab (s.withPending p).adc.rspIdx = some e := he
    rw [execRspWait1, hp]
    rfl

/-- RSP.ABORT (R142). -/
theorem writes_execRspAbort {s t : State} (h : execRspAbort s = .next t) :
    Writes .rsel execRspAbort s := by
  have hab : s.cfg.rspAbort = true := by
    by_contra hab
    simp [execRspAbort, if_neg hab] at h
  exact ⟨.rsp (some idleCode) none, rfl, fun _ => if_pos hab⟩

/-- The formats of the operations of a tick: the `sys` edge's, then the `adc` edge's. -/
def edgeFormats : List Format :=
  [.dsel, .asel, .qsel, .hsel, .fixed .qRead] ++ [.rsel, .csel]

/-- Every operation of a tick but RESET that gives a next state is one write of its component, from pre-edge
values only (R13). -/
theorem writes_exec {i : Instr} {s t : State} (hr : i ≠ .reset) (hf : i.format ∈ edgeFormats)
    (h : exec i s = .next t) : Writes i.format (exec i) s := by
  cases i with
  | decIdle => exact ⟨.dec wait1Code (some false) (some false) none, rfl, fun _ => rfl⟩
  | decWait1 => exact ⟨.dec wait2Code none none none, rfl, fun _ => rfl⟩
  | decWait2 => exact ⟨.dec nullbitCode none none none, rfl, fun _ => rfl⟩
  | decNullbit => exact ⟨.dec (bitCode s.cfg (s.cfg.N - 1)) none none none, rfl, fun _ => rfl⟩
  | decBit9 => exact writes_decBitOp 9 h
  | decBit8 => exact writes_decBitOp 8 h
  | decBit7 => exact writes_decBitOp 7 h
  | decBit6 => exact writes_decBitOp 6 h
  | decBit5 => exact writes_decBitOp 5 h
  | decBit4 => exact writes_decBitOp 4 h
  | decBit3 => exact writes_decBitOp 3 h
  | decBit2 => exact writes_decBitOp 2 h
  | decBit1 => exact writes_decBitOp 1 h
  | decBitN k => exact writes_decBitOp k h
  | decBit0 =>
    exact ⟨.dec idleCode (some true) (some true) (some (captured s 0)), rfl, fun _ => rfl⟩
  | unusedDsel14 | unusedDsel15 | unusedRsel14 | unusedRsel15 => cases h
  | rspIdleHold => exact ⟨.rsp none none, rfl, fun _ => rfl⟩
  | rspIdleGo => exact ⟨.rsp (some wait1Code) none, rfl, fun _ => rfl⟩
  | rspWait1 => exact writes_execRspWait1 h
  | rspWait2 => exact ⟨.rsp (some nullbitCode) none, rfl, fun _ => rfl⟩
  | rspNullbit => exact ⟨.rsp (some (bitCode s.cfg (s.cfg.N - 1))) none, rfl, fun _ => rfl⟩
  | rspBit9 => exact writes_rspBitOp 9 h
  | rspBit8 => exact writes_rspBitOp 8 h
  | rspBit7 => exact writes_rspBitOp 7 h
  | rspBit6 => exact writes_rspBitOp 6 h
  | rspBit5 => exact writes_rspBitOp 5 h
  | rspBit4 => exact writes_rspBitOp 4 h
  | rspBit3 => exact writes_rspBitOp 3 h
  | rspBit2 => exact writes_rspBitOp 2 h
  | rspBit1 => exact writes_rspBitOp 1 h
  | rspBitN k => exact writes_rspBitOp k h
  | rspBit0 => exact ⟨.rsp (some idleCode) none, rfl, fun _ => rfl⟩
  | rspAbort => exact writes_execRspAbort h
  | rspCount => exact ⟨.count (cut s.cfg.RW (s.adc.rspCnt + 1)) none, rfl, fun _ => rfl⟩
  | rspWrap => exact ⟨.count 0 (some (cut s.cfg.IW (s.adc.rspIdx + 1))), rfl, fun _ => rfl⟩
  | accHold => exact ⟨.acc false none none none, rfl, fun _ => rfl⟩
  | accAdd =>
    exact ⟨.acc false (some (cut s.cfg.CW (s.sys.accCnt + 1))) (some (accTotal s)) none, rfl,
      fun _ => rfl⟩
  | accEmit => exact ⟨.acc true (some 0) (some 0) (some (accTotal s)), rfl, fun _ => rfl⟩
  | qNowrite => exact ⟨.queue none none, rfl, fun _ => rfl⟩
  | qWriteAdv =>
    exact ⟨.queue (some (s.sys.qWr, truncEntry s.cfg s.sys.accOut))
      (some (cut s.cfg.QW (s.sys.qWr + 1))), rfl, fun _ => if_pos (qWr_lt_of_queueWrite_next h)⟩
  | qWriteWrap =>
    exact ⟨.queue (some (s.sys.qWr, truncEntry s.cfg s.sys.accOut)) (some 0), rfl,
      fun _ => if_pos (qWr_lt_of_queueWrite_next h)⟩
  | qRead => exact ⟨.read, rfl, fun p => execQRead_eq (s.withPending p)⟩
  | hRdwait => exact ⟨.cursor (cut s.cfg.PW (s.sys.hRdcnt + 1)) none, rfl, fun _ => rfl⟩
  | hRdadv => exact ⟨.cursor 0 (some (cut s.cfg.QW (s.sys.hRd + 1))), rfl, fun _ => rfl⟩
  | genInit | genSame | genNewsym | genFlip | genEmit => exact absurd hf (by decide)
  | reset => exact absurd rfl hr

/-- Settles O9: each operation is one write of its own component, from pre-edge values only, and writes of
different components commute. -/
theorem operationsOfAnEdgeCommute : Obligations.OperationsOfAnEdgeCommute := by
  unfold Obligations.OperationsOfAnEdgeCommute
  intro s si sj i j hi hj hij hdom hsi hsj
  obtain ⟨hif, hjf⟩ : i.format ∈ edgeFormats ∧ j.format ∈ edgeFormats := by
    rcases hdom with ⟨hif, hjf⟩ | ⟨hif, hjf⟩
    · exact ⟨List.mem_append_left _ hif, List.mem_append_left _ hjf⟩
    · exact ⟨List.mem_append_right _ hif, List.mem_append_right _ hjf⟩
  exact (writes_exec hi hif hsi).comm (writes_exec hj hjf hsj) hij hsi hsj

end Sys2Proof.Machine
end

section
/-!
PROOFS. What an operation, a tick and a step leave unchanged (R13, R29, R30, R50, R71): each operation of a
tick is one write of its component, and a tick is a row of such writes and two commits.
-/

namespace Sys2Proof.Machine

/-! ### Frames of the operations of a tick (R13, R30) -/

/-- An operation of a tick that gives a next state made one write of its component. -/
theorem exists_write_of_exec_next {i : Instr} {s t : State} (hr : i ≠ .reset)
    (hf : i.format ∈ edgeFormats) (h : exec i s = .next t) :
    ∃ w : Write, w.format = i.format ∧ t = w.apply s := by
  obtain ⟨w, hwf, hw⟩ := writes_exec hr hf h
  exact ⟨w, hwf, by simpa [s.withPending_pending, h] using hw s.pending⟩

theorem Write.apply_dsel {w : Write} (hf : w.format = .dsel) (s : State) :
    OnlySysNext s (w.apply s) ∧ SameAcc s.sysNext (w.apply s).sysNext ∧
      SameQueue s.sysNext (w.apply s).sysNext ∧ (w.apply s).sysNext.qWr = s.sysNext.qWr ∧
      SameCursor s.sysNext (w.apply s).sysNext := by
  cases w with
  | dec => exact ⟨rfl, ⟨rfl, rfl, rfl, rfl⟩, fun _ => rfl, rfl, rfl, rfl⟩
  | _ => cases hf

theorem Write.apply_asel {w : Write} (hf : w.format = .asel) (s : State) :
    OnlySysNext s (w.apply s) ∧ SameDec s.sysNext (w.apply s).sysNext ∧
      SameQueue s.sysNext (w.apply s).sysNext ∧ (w.apply s).sysNext.qWr = s.sysNext.qWr ∧
      SameCursor s.sysNext (w.apply s).sysNext := by
  cases w with
  | acc => exact ⟨rfl, ⟨rfl, rfl, rfl, rfl⟩, fun _ => rfl, rfl, rfl, rfl⟩
  | _ => cases hf

theorem Write.apply_qsel {w : Write} (hf : w.format = .qsel) (s : State) :
    OnlySysNext s (w.apply s) ∧ SameDec s.sysNext (w.apply s).sysNext ∧
      SameAcc s.sysNext (w.apply s).sysNext ∧ SameCursor s.sysNext (w.apply s).sysNext := by
  cases w with
  | queue => exact ⟨rfl, ⟨rfl, rfl, rfl, rfl⟩, ⟨rfl, rfl, rfl, rfl⟩, rfl, rfl⟩
  | _ => cases hf

theorem Write.apply_hsel {w : Write} (hf : w.format = .hsel) (s : State) :
    OnlySysNext s (w.apply s) ∧ SameDec s.sysNext (w.apply s).sysNext ∧
      SameAcc s.sysNext (w.apply s).sysNext ∧ SameQueue s.sysNext (w.apply s).sysNext ∧
      (w.apply s).sysNext.qWr = s.sysNext.qWr := by
  cases w with
  | cursor => exact ⟨rfl, ⟨rfl, rfl, rfl, rfl⟩, ⟨rfl, rfl, rfl, rfl⟩, fun _ => rfl, rfl⟩
  | _ => cases hf

theorem Write.apply_qRead {w : Write} (hf : w.format = .fixed .qRead) (s : State) :
    w.apply s = { s with qOutRead := (w.apply s).qOutRead, draws := (w.apply s).draws } := by
  cases w with
  | read => rfl
  | _ => cases hf

theorem Write.apply_rsel {w : Write} (hf : w.format = .rsel) (s : State) :
    OnlyAdcNext s (w.apply s) ∧ SameRspCount s.adcNext (w.apply s).adcNext := by
  cases w with
  | rsp => exact ⟨rfl, rfl, rfl⟩
  | _ => cases hf

theorem Write.apply_csel {w : Write} (hf : w.format = .csel) (s : State) :
    OnlyAdcNext s (w.apply s) ∧ SameRspFsm s.adcNext (w.apply s).adcNext := by
  cases w with
  | count => exact ⟨rfl, rfl, rfl, rfl⟩
  | _ => cases hf

/-- A queue write stores to the slot the write cursor names and to no other (R72, R211). -/
theorem read_of_queueWrite_next {wr a : Nat} {s t : State} (h : queueWrite wr s = .next t)
    (ha : a ≠ s.sys.qWr) : Memory.read t.sysNext.qmem a = Memory.read s.sysNext.qmem a := by
  rw [queueWrite_eq (qWr_lt_of_queueWrite_next h)] at h
  cases h
  simp [Memory.read_write, ha]

/-- Every operation of the Queue's write side leaves the slots off the write cursor (R211, R212). -/
theorem read_of_exec_qsel_next {i : Instr} {a : Nat} {s t : State} (hf : i.format = .qsel)
    (h : exec i s = .next t) (ha : a ≠ s.sys.qWr) :
    Memory.read t.sysNext.qmem a = Memory.read s.sysNext.qmem a := by
  cases i with
  | qNowrite => cases h; rfl
  | qWriteAdv | qWriteWrap => exact read_of_queueWrite_next h ha
  | _ => cases hf

/-- Settles O35: each operation is one write of its component, and a write changes its own component's
registers only; of the slots, a queue write changes the one at `q_wr`. -/
theorem sysOperationsFrame : Obligations.SysOperationsFrame := by
  unfold Obligations.SysOperationsFrame
  intro s t i h hr
  have hw := fun hf => exists_write_of_exec_next hr hf h
  refine ⟨fun hf => ?_, fun hf => ?_, fun hf => ?_, fun hf => ?_, fun hf => ?_⟩ <;>
    obtain ⟨w, hwf, rfl⟩ := hw (by rw [hf]; decide) <;> rw [hf] at hwf
  · exact w.apply_dsel hwf s
  · exact w.apply_asel hwf s
  · obtain ⟨honly, hdec, hacc, hcur⟩ := w.apply_qsel hwf s
    exact ⟨honly, hdec, hacc, hcur, fun a ha => read_of_exec_qsel_next hf h ha⟩
  · exact w.apply_hsel hwf s
  · exact w.apply_qRead hwf s

/-- Settles O36: each operation is one write of its component, and a write changes its own component's
registers only. -/
theorem adcOperationsFrame : Obligations.AdcOperationsFrame := by
  unfold Obligations.AdcOperationsFrame
  intro s t i h
  refine ⟨fun hf => ?_, fun hf => ?_⟩ <;>
    obtain ⟨w, hwf, rfl⟩ := exists_write_of_exec_next (by rintro rfl; cases hf)
      (by rw [hf]; decide) h <;> rw [hf] at hwf
  · exact w.apply_rsel hwf s
  · exact w.apply_csel hwf s

/-! ### Frame of a tick (R13, R79, R230) -/

theorem rejected_ne_next (e : DecodeError) (t : State) : rejected e ≠ .next t := by
  cases e <;> nofun

theorem decBitInstr_isDec (i : Nat) : decBitInstr i ≠ .reset ∧ (decBitInstr i).format = .dsel := by
  unfold decBitInstr
  split <;> exact ⟨nofun, rfl⟩

theorem rspBitInstr_isRsp (i : Nat) : rspBitInstr i ≠ .reset ∧ (rspBitInstr i).format = .rsel := by
  unfold rspBitInstr
  split <;> exact ⟨nofun, rfl⟩

/-- A Decoder state code selects an operation of the Decoder (R91, R98). -/
theorem decodeDecState_isDec {c : Config} {code : Nat} {i : Instr}
    (h : decodeDecState c code = .ok i) : i ≠ .reset ∧ i.format = .dsel := by
  unfold decodeDecState at h
  split_ifs at h <;> cases h
  exacts [⟨nofun, rfl⟩, ⟨nofun, rfl⟩, ⟨nofun, rfl⟩, ⟨nofun, rfl⟩, decBitInstr_isDec _, ⟨nofun, rfl⟩,
    ⟨nofun, rfl⟩]

/-- A Responder state code selects an operation of the Responder FSM (R92, R98). -/
theorem decodeRspState_isRsp {c : Config} {cs : Bool} {code : Nat} {i : Instr}
    (h : decodeRspState c cs code = .ok i) : i ≠ .reset ∧ i.format = .rsel := by
  unfold decodeRspState at h
  split_ifs at h <;> cases h
  exacts [⟨nofun, rfl⟩, ⟨nofun, rfl⟩, ⟨nofun, rfl⟩, ⟨nofun, rfl⟩, ⟨nofun, rfl⟩, ⟨nofun, rfl⟩,
    rspBitInstr_isRsp _, ⟨nofun, rfl⟩, ⟨nofun, rfl⟩]

/-- Without reset a component that completes has performed an operation of its own, not RESET (R98). -/
theorem exists_exec_of_perform_next {f : Format} {s t : State} (hf : f ∈ edgeFormats)
    (h : perform f s = .next t) (hr : s.rst = false) :
    ∃ i : Instr, i ≠ .reset ∧ i.format = f ∧ exec i s = .next t := by
  have hr' : ¬ s.rst = true := by simp [hr]
  simp only [edgeFormats, List.cons_append, List.nil_append, List.mem_cons, List.not_mem_nil,
    or_false] at hf
  rcases hf with rfl | rfl | rfl | rfl | rfl | rfl | rfl
  · rw [perform_dsel, if_neg hr'] at h
    split at h
    · next i hi =>
      obtain ⟨hne, hfmt⟩ := decodeDecState_isDec hi
      exact ⟨i, hne, hfmt, h⟩
    · exact absurd h (rejected_ne_next _ t)
  · rw [perform_asel, if_neg hr'] at h
    split_ifs at h
    exacts [⟨.accEmit, nofun, rfl, h⟩, ⟨.accAdd, nofun, rfl, h⟩, ⟨.accHold, nofun, rfl, h⟩]
  · rw [perform_qsel, if_neg hr'] at h
    split_ifs at h
    exacts [⟨.qWriteWrap, nofun, rfl, h⟩, ⟨.qWriteAdv, nofun, rfl, h⟩, ⟨.qNowrite, nofun, rfl, h⟩]
  · rw [perform_hsel, if_neg hr'] at h
    split_ifs at h
    exacts [⟨.hRdadv, nofun, rfl, h⟩, ⟨.hRdwait, nofun, rfl, h⟩]
  · exact ⟨.qRead, nofun, rfl, h⟩
  · rw [perform_rsel, if_neg hr'] at h
    split at h
    · next i hi =>
      obtain ⟨hne, hfmt⟩ := decodeRspState_isRsp hi
      exact ⟨i, hne, hfmt, h⟩
    · exact absurd h (rejected_ne_next _ t)
  · rw [perform_csel, if_neg hr'] at h
    split_ifs at h
    exacts [⟨.rspWrap, nofun, rfl, h⟩, ⟨.rspCount, nofun, rfl, h⟩]

/-- Without reset a component that completes has made one write of its own. -/
theorem exists_write_of_perform_next {f : Format} {s t : State} (hf : f ∈ edgeFormats)
    (h : perform f s = .next t) (hr : s.rst = false) : ∃ w : Write, w.format = f ∧ t = w.apply s := by
  obtain ⟨i, hi, rfl, hx⟩ := exists_exec_of_perform_next hf h hr
  exact exists_write_of_exec_next hi hf hx

/-- Without reset a component that completes keeps every pre-edge value (R13). -/
theorem exists_withPending_of_perform_next {f : Format} {s t : State} (hf : f ∈ edgeFormats)
    (h : perform f s = .next t) (hr : s.rst = false) : ∃ p : Pending, t = s.withPending p := by
  obtain ⟨w, -, rfl⟩ := exists_write_of_perform_next hf h hr
  exact ⟨_, w.apply_eq_withPending s⟩

/-- The `sys` edge commits what its operations left pending and keeps every other pre-edge value. -/
theorem exists_withPending_of_sysEdge_next {s t : State} (hr : s.rst = false)
    (h : sysEdge s = .next t) : ∃ p : Pending, t = (s.withPending p).commitSys := by
  simp only [sysEdge, andThen_eq_next] at h
  obtain ⟨s₁, h₁, s₂, h₂, s₃, h₃, s₄, h₄, s₅, h₅, h₆⟩ := h
  obtain ⟨p₁, rfl⟩ := exists_withPending_of_perform_next (f := .dsel) (by decide) h₁ hr
  obtain ⟨p₂, rfl⟩ := exists_withPending_of_perform_next (f := .asel) (by decide) h₂ hr
  obtain ⟨p₃, rfl⟩ := exists_withPending_of_perform_next (f := .qsel) (by decide) h₃ hr
  obtain ⟨p₄, rfl⟩ := exists_withPending_of_perform_next (f := .fixed .qRead) (by decide) h₄ hr
  obtain ⟨p₅, rfl⟩ := exists_withPending_of_perform_next (f := .hsel) (by decide) h₅ hr
  cases h₆
  exact ⟨p₅, rfl⟩

/-- Without reset a component of the `adc` domain that completes changes pending `adc` values only. -/
theorem exists_setAdcNext_of_perform_next {f : Format} {s t : State} (hf : f ∈ [.rsel, .csel])
    (h : perform f s = .next t) (hr : s.rst = false) : ∃ r : AdcRegs, t = s.setAdcNext r := by
  obtain ⟨w, rfl, rfl⟩ := exists_write_of_perform_next (List.mem_append_right _ hf) h hr
  cases w with
  | rsp | count => exact ⟨_, rfl⟩
  | _ => simp [Write.format] at hf

/-- The `adc` edge commits what its operations left pending for the `adc` domain and changes nothing
else. -/
theorem exists_setAdcNext_of_adcEdge_next {s t : State} (hr : s.rst = false)
    (h : adcEdge s = .next t) : ∃ r : AdcRegs, t = (s.setAdcNext r).commitAdc := by
  simp only [adcEdge, andThen_eq_next] at h
  obtain ⟨s₁, h₁, s₂, h₂, h₃⟩ := h
  obtain ⟨r₁, rfl⟩ := exists_setAdcNext_of_perform_next (f := .rsel) (by decide) h₁ hr
  obtain ⟨r₂, rfl⟩ := exists_setAdcNext_of_perform_next (f := .csel) (by decide) h₂ hr
  cases h₃
  exact ⟨r₂, rfl⟩

/-- What every tick that completes leaves alone, whatever state it starts from: only the registers, the
wire `q_out`, and the model's counts and inputs are new, and nothing is pending after it. -/
theorem tick_next_frame {s t : State} (h : tick s = .next t) :
    ∃ (r : SysRegs) (a : AdcRegs) (q : Int) (n : Nat),
      t = { s with
        sys := r, sysNext := r, adc := a, adcNext := a, qOutRead := q, draws := n
        rstIn := s.rstIn.tail, rst := s.nextRst, tick := s.tick + 1 } := by
  cases hr : s.nextRst with
  | true =>
    rw [tick_reset hr] at h
    cases h
    exact ⟨_, _, _, _, by rw [← hr]; rfl⟩
  | false =>
    obtain ⟨m, hm, ht⟩ := andThen_eq_next.1 h
    obtain ⟨p, rfl⟩ := exists_withPending_of_sysEdge_next (s := s.beginTick) hr hm
    obtain ⟨r, rfl⟩ := exists_setAdcNext_of_adcEdge_next
      (s := (s.beginTick.withPending p).commitSys) hr ht
    exact ⟨_, _, _, _, by rw [← hr]; rfl⟩

/-! ### The configuration (R29, R50) -/

theorem cfg_of_execGenInit_next {s t : State} (h : execGenInit s = .next t) : t.cfg = s.cfg := by
  unfold execGenInit at h
  split at h <;> cases h
  rfl

theorem cfg_of_execGenNewsym_next {s t : State} (h : execGenNewsym s = .next t) : t.cfg = s.cfg := by
  unfold execGenNewsym at h
  split at h <;> cases h
  rfl

theorem cfg_of_execGenFlip_next {s t : State} (h : execGenFlip s = .next t) : t.cfg = s.cfg := by
  unfold execGenFlip at h
  split at h <;> cases h
  rfl

theorem cfg_of_execGenEmit_next {s t : State} (h : execGenEmit s = .next t) : t.cfg = s.cfg := by
  unfold execGenEmit at h
  split at h <;> cases h
  rfl

theorem cfg_of_perform_gsel_next {s t : State} (h : perform .gsel s = .next t) : t.cfg = s.cfg := by
  rw [perform_gsel] at h
  split_ifs at h
  · exact cfg_of_execGenFlip_next h
  · exact cfg_of_execGenNewsym_next h
  · cases h; rfl

/-- The last step of construction keeps the configuration (R252 check 7, R270). -/
theorem cfg_of_finishStep_next {s t : State} (h : finishStep s = .next t) : t.cfg = s.cfg := by
  unfold finishStep at h
  split at h
  · cases h
  · split at h <;> cases h
    rfl

/-- The step that accepts a proposal makes it the configuration (R252; log entry 1). -/
theorem cfg_of_constructStep_next {p : Proposal} {s t : State} (h : constructStep p s = .next t) :
    t.cfg = p.toConfig := by
  unfold constructStep at h
  split at h
  · cases h
  · split at h
    · cases h; rfl
    · split at h <;> cases h
      rfl

theorem cfg_of_andThen_next {o : Result} {f : State → State} {c : Config} {t : State}
    (ho : ∀ s, o = .next s → s.cfg = c) (hf : ∀ s, (f s).cfg = s.cfg)
    (h : andThen o (fun s => .next (f s)) = .next t) : t.cfg = c := by
  obtain ⟨s, hs, ht⟩ := andThen_eq_next.1 h
  cases ht
  exact (hf s).trans (ho s hs)

/-- Every step but the one that accepts a proposal keeps the configuration, stage by stage. -/
theorem cfg_of_step_next {s t : State} (hs : ∀ p, s.stage ≠ .construct p) (h : step s = .next t) :
    t.cfg = s.cfg := by
  unfold step advance at h
  split at h
  · next p hp => exact absurd hp (hs p)
  · exact cfg_of_andThen_next (f := (State.setStage · .genSelect))
      (fun _ => cfg_of_execGenInit_next) (fun _ => rfl) h
  · exact cfg_of_andThen_next (f := (State.setStage · .genEmit))
      (fun _ => cfg_of_perform_gsel_next) (fun _ => rfl) h
  · exact cfg_of_andThen_next (f := genAdvance) (fun _ => cfg_of_execGenEmit_next) (fun _ => rfl) h
  · exact cfg_of_finishStep_next h
  · obtain ⟨r, a, q, n, rfl⟩ := tick_next_frame h
    rfl

/-- Settles O37: the configuration stage by stage, the rest by the frame of a tick. -/
theorem tickLeavesConfigAndTable : Obligations.TickLeavesConfigAndTable := by
  unfold Obligations.TickLeavesConfigAndTable
  intro s t h
  refine ⟨fun p hp => ?_, fun hs => cfg_of_step_next hs h, fun hrun => ?_⟩
  · have hc : constructStep p s = .next t := by simpa [step, advance, hp] using h
    exact cfg_of_constructStep_next hc
  · rw [step_run hrun] at h
    obtain ⟨r, a, q, n, rfl⟩ := tick_next_frame h
    exact ⟨hrun, rfl, rfl, rfl, rfl, rfl, rfl⟩

end Sys2Proof.Machine
end

section
/-!
PROOFS. The ranges of 10_state.md as an invariant of the step (R32 to R48): the ranges of a legal
configuration, that every component's writes keep the registers in theirs, and the tick put together.
-/

namespace Sys2Proof

namespace Machine

/-! ### The ranges a legal configuration has (R7, R251, R252) -/

theorem firstError_eq_none_iff {l : List (Bool × Refusal)} :
    firstError l = none ↔ ∀ e ∈ l, e.1 = false := by
  induction l with
  | nil => simp [firstError]
  | cons e l ih =>
    obtain ⟨bad, r⟩ := e
    cases bad <;> simp [firstError, ih]

end Machine

open Machine

theorem Tone.value_pos_of_nonpositive_eq_false {f : Tone} (h : f.nonpositive = false) :
    0 < f.value := by
  by_contra hf
  simp [f.nonpositive_iff.2 (not_lt.1 hf)] at h

theorem Proposal.length_of_badBits_eq_false {p : Proposal} (h : p.badBits = false) {b : List Bool}
    (hb : p.source = .bits b) : (b.length : Int) = p.B := by
  simpa [badBits, hb] using h

/-- The checks 1 to 3 leave every parameter in its legal range (R252). -/
theorem Config.Legal.inRange {c : Config} (h : c.Legal) : c.InRange := by
  have hc := firstError_eq_none_iff.1 h
  simp only [Proposal.paramChecks, List.forall_mem_cons, decide_eq_false_iff_not] at hc
  obtain ⟨hD, hK, hB, hP, -, -, -, -, hN, hC, hF, hR, h1, h0, hrd, hbits, hT, hW, -⟩ := hc
  simp only [Config.proposal] at hD hK hB hP hN hC hF hR hrd hT hW
  constructor
  case toneOne => exact Tone.value_pos_of_nonpositive_eq_false h1
  case toneZero => exact Tone.value_pos_of_nonpositive_eq_false h0
  case bitCount =>
    intro b hb
    exact Int.ofNat_inj.1 (Proposal.length_of_badBits_eq_false (p := c.proposal) hbits hb)
  case entryFits => exact_mod_cast not_lt.1 hW
  all_goals omega

theorem Config.InRange.sumWidth {c : Config} (h : c.InRange) : 1 ≤ c.W :=
  h.entryWidth.trans h.entryFits

namespace Machine

theorem fitsSigned_zero (w : Nat) : fitsSigned w 0 = true := by
  simp [fitsSigned]

theorem cut_le (w x : Nat) : cut w x ≤ x :=
  Nat.mod_le x _

theorem bitCode_le (c : Config) (i : Nat) : bitCode c i ≤ c.N + 3 :=
  Nat.sub_le _ _

/-! ### Every component keeps the ranges (R32 to R48) -/

theorem SysRegs.wf_reset {c : Config} (hc : c.InRange) {m : Memory} (hm : Memory.wf c m = true) :
    SysRegs.Wf c (SysRegs.reset m) :=
  ⟨Nat.zero_le _, fitsSigned_zero _, Nat.zero_le _, fitsSigned_zero _, fitsSigned_zero _, hc.capacity,
    hm, Nat.two_pow_pos _, hc.readPeriod⟩

theorem AdcRegs.wf_reset (c : Config) : AdcRegs.Wf c AdcRegs.reset :=
  ⟨Nat.zero_le _, Nat.zero_le _, Nat.two_pow_pos _, Nat.two_pow_pos _⟩

theorem fitsSigned_captured {s : State} (hc : s.cfg.InRange) (i : Nat) :
    fitsSigned s.cfg.N (captured s i) = true :=
  fitsSigned_wrap (Nat.one_le_of_lt hc.sampleWidth) _

theorem fitsSigned_accTotal {s : State} (hc : s.cfg.InRange) :
    fitsSigned s.cfg.W (accTotal s) = true :=
  fitsSigned_wrap hc.sumWidth _

/-- A counter below its limit that does not stand at it stays below when it counts (R12). -/
theorem cut_succ_le {w x n : Nat} (hle : x ≤ n) (hne : x ≠ n) : cut w (x + 1) ≤ n :=
  (cut_le w (x + 1)).trans (Nat.lt_of_le_of_ne hle hne)

theorem decUpd_wf {s : State} (hc : s.cfg.InRange) {r : SysRegs} (h : SysRegs.Wf s.cfg r) :
    SysRegs.Wf s.cfg (decUpd s r) := by
  obtain ⟨hstate, hsample, hrest⟩ := h
  unfold decUpd
  split_ifs
  · exact ⟨by simp [wait1Code], hsample, hrest⟩
  · exact ⟨by simp [wait2Code], hsample, hrest⟩
  · exact ⟨by simp [nullbitCode], hsample, hrest⟩
  · exact ⟨bitCode_le _ _, hsample, hrest⟩
  · exact ⟨Nat.zero_le _, fitsSigned_captured hc _, hrest⟩
  · exact ⟨bitCode_le _ _, fitsSigned_captured hc _, hrest⟩

theorem accUpd_wf {s : State} (hc : s.cfg.InRange) (hcnt : s.sys.accCnt ≤ s.cfg.LIM) {r : SysRegs}
    (h : SysRegs.Wf s.cfg r) : SysRegs.Wf s.cfg (accUpd s r) := by
  obtain ⟨hstate, hsample, hrcnt, hsum, hout, hrest⟩ := h
  unfold accUpd
  split_ifs with hv hl
  · exact ⟨hstate, hsample, Nat.zero_le _, fitsSigned_zero _, fitsSigned_accTotal hc, hrest⟩
  · have hne : s.sys.accCnt ≠ s.cfg.LIM := by simpa [State.atLim] using hl
    exact ⟨hstate, hsample, cut_succ_le hcnt hne, fitsSigned_accTotal hc, hout, hrest⟩
  · exact ⟨hstate, hsample, hrcnt, hsum, hout, hrest⟩

/-- The write cursor's next value names a slot (R40, R211). -/
theorem qWr_next_lt {s : State} (hq : s.sys.qWr < s.cfg.K) :
    (if s.wrLast then 0 else cut s.cfg.QW (s.sys.qWr + 1)) < s.cfg.K := by
  split_ifs with hl
  · exact Nat.zero_lt_of_lt hq
  · have hne : s.sys.qWr ≠ s.cfg.K - 1 := by simpa [State.wrLast] using hl
    have := cut_succ_le (w := s.cfg.QW) (Nat.le_sub_one_of_lt hq) hne
    omega

theorem queueUpd_wf {s : State} (hc : s.cfg.InRange) (hq : s.sys.qWr < s.cfg.K) {r : SysRegs}
    (h : SysRegs.Wf s.cfg r) : SysRegs.Wf s.cfg (queueUpd s r) := by
  obtain ⟨hstate, hsample, hcnt, hsum, hout, hwr, hmem, hrest⟩ := h
  unfold queueUpd
  by_cases hv : s.sys.accValid = true
  · rw [if_pos hv]
    exact ⟨hstate, hsample, hcnt, hsum, hout, qWr_next_lt hq,
      Memory.wf_write _ hmem (fitsSigned_truncEntry hc.entryWidth _), hrest⟩
  · rw [if_neg hv]
    exact ⟨hstate, hsample, hcnt, hsum, hout, hwr, hmem, hrest⟩

theorem cursorUpd_wf {s : State} (hc : s.cfg.InRange) (hcnt : s.sys.hRdcnt < s.cfg.rdPeriod)
    {r : SysRegs} (h : SysRegs.Wf s.cfg r) : SysRegs.Wf s.cfg (cursorUpd s r) := by
  obtain ⟨hstate, hsample, hacnt, hsum, hout, hwr, hmem, hrd, -⟩ := h
  unfold cursorUpd
  split_ifs with hd
  · exact ⟨hstate, hsample, hacnt, hsum, hout, hwr, hmem, cut_lt _ _, hc.readPeriod⟩
  · have hne : s.sys.hRdcnt ≠ s.cfg.rdPeriod - 1 := by simpa [State.rdDue] using hd
    have hlt := cut_succ_le (w := s.cfg.PW) (Nat.le_sub_one_of_lt hcnt) hne
    exact ⟨hstate, hsample, hacnt, hsum, hout, hwr, hmem, hrd,
      Nat.lt_of_le_sub_one (Nat.zero_lt_of_lt hcnt) hlt⟩

/-- The `sys` edge keeps the ranges (R32 to R43). -/
theorem sysUpd_wf {s : State} (hc : s.cfg.InRange) (h : SysRegs.Wf s.cfg s.sys) {r : SysRegs}
    (hr : SysRegs.Wf s.cfg r) : SysRegs.Wf s.cfg (sysUpd s r) := by
  obtain ⟨-, -, hcnt, -, -, hwr, -, -, hrdcnt⟩ := h
  exact cursorUpd_wf hc hrdcnt (queueUpd_wf hc hwr (accUpd_wf hc hcnt (decUpd_wf hc hr)))

theorem rspUpd_wf {s : State} (e : Bool × Int) {r : AdcRegs} (h : AdcRegs.Wf s.cfg r) :
    AdcRegs.Wf s.cfg (rspUpd s e r) := by
  obtain ⟨hstate, hcnt, hidx, hhold⟩ := h
  unfold rspUpd
  split_ifs
  · exact ⟨hstate, hcnt, hidx, hhold⟩
  · exact ⟨by simp [wait1Code], hcnt, hidx, hhold⟩
  · exact ⟨Nat.zero_le _, hcnt, hidx, hhold⟩
  · exact ⟨by simp [wait2Code], hcnt, hidx, pat_lt _ _⟩
  · exact ⟨by simp [nullbitCode], hcnt, hidx, hhold⟩
  · exact ⟨bitCode_le _ _, hcnt, hidx, hhold⟩
  · exact ⟨Nat.zero_le _, hcnt, hidx, hhold⟩
  · exact ⟨bitCode_le _ _, hcnt, hidx, hhold⟩

theorem countUpd_wf {s : State} (hcnt : s.adc.rspCnt ≤ s.cfg.C) {r : AdcRegs}
    (h : AdcRegs.Wf s.cfg r) : AdcRegs.Wf s.cfg (countUpd s r) := by
  obtain ⟨hstate, -, hidx, hhold⟩ := h
  unfold countUpd
  split_ifs with ha
  · exact ⟨hstate, Nat.zero_le _, cut_lt _ _, hhold⟩
  · have hne : s.adc.rspCnt ≠ s.cfg.C := by simpa [State.atC] using ha
    exact ⟨hstate, cut_succ_le hcnt hne, hidx, hhold⟩

/-! ### The invariant of the step -/

/-- The write cursor of a well-formed state names a slot (R40, R72). -/
theorem State.Wf.qWr_lt {s : State} (hw : s.Wf) : s.sys.qWr < s.sys.qmem.length := by
  obtain ⟨-, -, -, ⟨-, -, -, -, -, hwr, hmem, -⟩, -⟩ := hw
  rwa [((Memory.wf_iff _ _).1 hmem).1]

/-- A tick without reset that completes has found the entry of its load, if it makes one (R131, R256). -/
theorem exists_entry_of_tick_next {s t : State} (hw : s.Wf) (hr : s.nextRst = false)
    (h : tick s = .next t) : ∃ e, (midTick s).loads → tableRead s.gtab s.adc.rspIdx = some e := by
  obtain ⟨hlegal, -, -, ⟨hstate, -⟩, -⟩ := id hw
  by_cases hl : (midTick s).loads
  · cases he : tableRead s.gtab s.adc.rspIdx with
    | some e => exact ⟨e, fun _ => rfl⟩
    | none =>
      have hN : 1 ≤ s.cfg.N := Nat.one_le_of_lt hlegal.inRange.sampleWidth
      rw [tick_mf1 hr hN hstate hw.qWr_lt hl he] at h
      cases h
  · exact ⟨(false, 0), fun hl' => absurd hl' hl⟩

/-- A tick keeps every register in its range, with and without reset (R13, R272). -/
theorem tick_wf {s t : State} (hw : s.Wf) (h : tick s = .next t) : t.Wf := by
  obtain ⟨hlegal, hstage, htable, hsys, hadc, -, -⟩ := id hw
  have hc := hlegal.inRange
  cases hr : s.nextRst with
  | true =>
    obtain ⟨-, -, -, -, -, -, hmem, -⟩ := hsys
    rw [tick_reset hr] at h
    cases h
    exact ⟨hlegal, hstage, htable, SysRegs.wf_reset hc hmem, AdcRegs.wf_reset _, rfl, rfl⟩
  | false =>
    obtain ⟨e, he⟩ := exists_entry_of_tick_next hw hr h
    obtain ⟨hdec, -⟩ := id hsys
    obtain ⟨hrsp, hcnt, -⟩ := id hadc
    have hsys' := sysUpd_wf (s := s.beginTick) hc hsys hsys
    have hadc' := countUpd_wf (s := midTick s) hcnt (rspUpd_wf (s := midTick s) e hadc)
    rw [tick_upd hr hdec hw.qWr_lt hrsp he] at h
    cases h
    exact ⟨hlegal, hstage, htable, hsys', hadc', rfl, rfl⟩

/-- Settles O52: a well-formed state is one of a constructed block, its step is a tick, and each component's
writes keep the ranges. -/
theorem stepKeepsWellFormed : Obligations.StepKeepsWellFormed := by
  unfold Obligations.StepKeepsWellFormed
  intro s t hw h
  obtain ⟨-, hrun, -⟩ := id hw
  rw [step_run hrun] at h
  exact tick_wf hw h

end Machine

end Sys2Proof
end

section
/-!
PROOFS. The selector decoder read row by row (R90 to R98, R104, R106, R142): what each state code selects,
that decoding undoes encoding, and what each FSM performs for every code of its state register.
-/

namespace Sys2Proof.Machine

/-! ### What a state code selects (R91, R92, R98) -/

theorem decBitInstr_of_ten_le {i : Nat} (h : 10 ≤ i) : decBitInstr i = .decBitN i := by
  obtain ⟨k, rfl⟩ := Nat.exists_eq_add_of_le' h
  rfl

theorem rspBitInstr_of_ten_le {i : Nat} (h : 10 ≤ i) : rspBitInstr i = .rspBitN i := by
  obtain ⟨k, rfl⟩ := Nat.exists_eq_add_of_le' h
  rfl

/-- The codes of the bit states lie above the lead-in's (R91). -/
theorem four_le_bitCode {c : Config} {i : Nat} (h : i < c.N) : 4 ≤ bitCode c i := by
  unfold bitCode
  omega

/-- The code of BIT(i) gives the bit number back (R91). -/
theorem sub_bitCode {c : Config} {i : Nat} (h : i < c.N) : c.N + 3 - bitCode c i = i := by
  unfold bitCode
  omega

theorem decodeDecState_bitCode {c : Config} {i : Nat} (h : i < c.N) :
    decodeDecState c (bitCode c i) = .ok (decBitInstr i) := by
  have h4 := four_le_bitCode h
  rw [decodeDecState, if_neg, if_neg, if_neg, if_neg, if_pos (bitCode_le c i), sub_bitCode h]
  all_goals simp only [idleCode, wait1Code, wait2Code, nullbitCode]; omega

/-- A code past the bit states is no state of the Decoder; 14 and 15 have a row of their own (R104). -/
theorem decodeDecState_of_unused {c : Config} {code : Nat} (h : c.N + 4 ≤ code) :
    decodeDecState c code =
      if code = 14 then .ok .unusedDsel14 else if code = 15 then .ok .unusedDsel15
      else .error (.unusedState .decoder code) := by
  rw [decodeDecState, if_neg, if_neg, if_neg, if_neg, if_neg (by omega)]
  all_goals simp only [idleCode, wait1Code, wait2Code, nullbitCode]; omega

/-- RSP.ABORT takes the place of every used state but IDLE (R142). -/
theorem decodeRspState_of_abort {c : Config} {cs : Bool} {code : Nat} (ha : (c.rspAbort && cs) = true)
    (h0 : code ≠ idleCode) (hc : code ≤ c.N + 3) : decodeRspState c cs code = .ok .rspAbort := by
  rw [decodeRspState, if_neg h0, if_pos hc, if_pos ha]

/-- Without an abort a used state but IDLE selects its own operation (R92). -/
theorem decodeRspState_of_not_abort {c : Config} {cs : Bool} {code : Nat}
    (ha : (c.rspAbort && cs) = false) (h0 : code ≠ idleCode) (hc : code ≤ c.N + 3) :
    decodeRspState c cs code =
      if code = wait1Code then .ok .rspWait1
      else if code = wait2Code then .ok .rspWait2
      else if code = nullbitCode then .ok .rspNullbit
      else .ok (rspBitInstr (c.N + 3 - code)) := by
  rw [decodeRspState, if_neg h0, if_pos hc, if_neg (by simp [ha])]

section NoAbort

variable {c : Config} {cs : Bool} (ha : (c.rspAbort && cs) = false)
include ha

theorem decodeRspState_wait1 : decodeRspState c cs wait1Code = .ok .rspWait1 :=
  decodeRspState_of_not_abort ha (by decide) (by simp [wait1Code])

theorem decodeRspState_wait2 : decodeRspState c cs wait2Code = .ok .rspWait2 :=
  decodeRspState_of_not_abort ha (by decide) (by simp [wait2Code])

theorem decodeRspState_nullbit : decodeRspState c cs nullbitCode = .ok .rspNullbit :=
  decodeRspState_of_not_abort ha (by decide) (by simp [nullbitCode])

theorem decodeRspState_bitCode {i : Nat} (h : i < c.N) :
    decodeRspState c cs (bitCode c i) = .ok (rspBitInstr i) := by
  have h4 := four_le_bitCode h
  rw [decodeRspState_of_not_abort ha _ (bitCode_le c i), if_neg, if_neg, if_neg, sub_bitCode h]
  all_goals simp only [idleCode, wait1Code, wait2Code, nullbitCode]; omega

end NoAbort

/-- A code past the bit states is no state of the Responder; 14 and 15 have a row of their own (R104). -/
theorem decodeRspState_of_unused {c : Config} {cs : Bool} {code : Nat} (h : c.N + 4 ≤ code) :
    decodeRspState c cs code =
      if code = 14 then .ok .unusedRsel14 else if code = 15 then .ok .unusedRsel15
      else .error (.unusedState .responder code) := by
  rw [decodeRspState, if_neg (by simp only [idleCode]; omega), if_neg (by omega)]

/-! ### The words of the two FSMs (R91, R92) -/

/-- A DSEL word without the `rst` bit is its state code. -/
theorem decode_dsel_code {c : Config} {w : Nat} (h : w < 2 ^ c.SW) :
    decode c .dsel w = decodeDecState c w := by
  have hw : ¬ 2 ^ Format.width c .dsel ≤ w := not_le.2 (Laws.Fits.dsel_fits h)
  simp [decode, hw, Nat.div_eq_of_lt h]

/-- An RSEL word without the `rst` bit is its cs bit and its state code. -/
theorem decode_rsel_code {c : Config} (cs : Bool) {w : Nat} (h : w < 2 ^ c.SW) :
    decode c .rsel (bitNat cs * 2 ^ c.SW + w) = decodeRspState c cs w := by
  have hp := Nat.two_pow_pos c.SW
  have hlt : bitNat cs * 2 ^ c.SW + w < 2 * 2 ^ c.SW := by
    have := Nat.mul_le_mul_right (2 ^ c.SW) (bitNat_le cs)
    omega
  have hw : ¬ 2 ^ Format.width c .rsel ≤ bitNat cs * 2 ^ c.SW + w :=
    not_le.2 (Laws.Fits.rsel_fits hlt)
  have hrst : (bitNat cs * 2 ^ c.SW + w) / 2 ^ (c.SW + 1) = 0 :=
    Nat.div_eq_of_lt (by rwa [Nat.pow_succ'])
  have hcs : (bitNat cs * 2 ^ c.SW + w) / 2 ^ c.SW = bitNat cs := by
    rw [Nat.add_comm, Nat.add_mul_div_right _ _ hp, Nat.div_eq_of_lt h, Nat.zero_add]
  have hcode : (bitNat cs * 2 ^ c.SW + w) % 2 ^ c.SW = w := by
    rw [Nat.mul_add_mod_self_right, Nat.mod_eq_of_lt h]
  simp only [decode, if_neg hw, hrst, hcs, hcode]
  cases cs <;> rfl

/-- An RSEL word with both bits 0 is its state code. -/
theorem decode_rsel_selected {c : Config} {w : Nat} (h : w < 2 ^ c.SW) :
    decode c .rsel w = decodeRspState c false w := by
  simpa using decode_rsel_code false h

/-- An RSEL word with cs = 1. -/
theorem decode_rsel_deselected {c : Config} {w : Nat} (h : w < 2 ^ c.SW) :
    decode c .rsel (2 ^ c.SW + w) = decodeRspState c true w := by
  simpa using decode_rsel_code true h

theorem decode_dsel_bitCode {c : Config} {i : Nat} (h : i < c.N) :
    decode c .dsel (bitCode c i) = .ok (decBitInstr i) := by
  rw [decode_dsel_code (Laws.Fits.bitCode_lt c i), decodeDecState_bitCode h]

theorem decode_rsel_bitCode {c : Config} {i : Nat} (h : i < c.N) :
    decode c .rsel (bitCode c i) = .ok (rspBitInstr i) := by
  rw [decode_rsel_selected (Laws.Fits.bitCode_lt c i),
    decodeRspState_bitCode (Bool.and_false _) h]

/-- An unused code lies past the bit states and in the state register's width (R104). -/
theorem unusedCode_iff {c : Config} {code : Nat} :
    unusedCode c code = true ↔ c.N + 4 ≤ code ∧ code < 2 ^ c.SW := by
  simp [unusedCode]

theorem decode_dsel_unused {c : Config} {code : Nat} (h : unusedCode c code = true) :
    decode c .dsel code =
      if code = 14 then .ok .unusedDsel14 else if code = 15 then .ok .unusedDsel15
      else .error (.unusedState .decoder code) := by
  obtain ⟨hpast, hlt⟩ := unusedCode_iff.1 h
  rw [decode_dsel_code hlt, decodeDecState_of_unused hpast]

theorem decode_rsel_unused {c : Config} {code : Nat} (h : unusedCode c code = true) :
    decode c .rsel code =
      if code = 14 then .ok .unusedRsel14 else if code = 15 then .ok .unusedRsel15
      else .error (.unusedState .responder code) := by
  obtain ⟨hpast, hlt⟩ := unusedCode_iff.1 h
  rw [decode_rsel_selected hlt, decodeRspState_of_unused hpast]

/-! ### The formats of fixed width (R93 to R96) -/

theorem decode_csel (c : Config) {w : Nat} (h : w < 4) : decode c .csel w = .ok (decodeCsel w) :=
  if_neg (not_le.2 h)

theorem decode_asel (c : Config) {w : Nat} (h : w < 8) : decode c .asel w = .ok (decodeAsel w) :=
  if_neg (not_le.2 h)

theorem decode_qsel (c : Config) {w : Nat} (h : w < 8) : decode c .qsel w = .ok (decodeQsel w) :=
  if_neg (not_le.2 h)

theorem decode_hsel (c : Config) {w : Nat} (h : w < 4) : decode c .hsel w = .ok (decodeHsel w) :=
  if_neg (not_le.2 h)

/-! ### The `rst` bit and every row (R90, R98) -/

/-- A number with bit n as its top bit is 1 above its low n bits. -/
theorem div_two_pow_eq_one {n w : Nat} (hle : 2 ^ n ≤ w) (hlt : w < 2 ^ (n + 1)) : w / 2 ^ n = 1 :=
  Nat.div_eq_of_lt_le (by omega) (by rw [Nat.pow_succ'] at hlt; omega)

/-- The formats that have an `rst` bit (R90). -/
def rstFormats : List Format :=
  [.dsel, .rsel, .csel, .asel, .qsel, .hsel]

/-- The `rst` bit is a format's top bit, and it selects RESET whatever the other bits are (R90). -/
theorem decode_of_rst_bit {c : Config} {f : Format} {w : Nat} (hf : f ∈ rstFormats)
    (hle : 2 ^ (f.width c - 1) ≤ w) (hlt : w < 2 ^ f.width c) : decode c f w = .ok .reset := by
  simp only [rstFormats, List.mem_cons, List.not_mem_nil, or_false] at hf
  rcases hf with rfl | rfl | rfl | rfl | rfl | rfl <;> rw [decode, if_neg (not_le.2 hlt)]
  · exact if_pos (div_two_pow_eq_one hle hlt)
  · exact if_pos (div_two_pow_eq_one hle hlt)
  · exact congrArg _ (if_pos (div_two_pow_eq_one (n := 1) hle hlt))
  · exact congrArg _ (if_pos (div_two_pow_eq_one (n := 2) hle hlt))
  · exact congrArg _ (if_pos (div_two_pow_eq_one (n := 2) hle hlt))
  · exact congrArg _ (if_pos (div_two_pow_eq_one (n := 1) hle hlt))

/-- Settles O2: row by row, the row's word is read back through the format's fields; a state code through
what it selects. -/
theorem decodeOfEncodeIsTheOperation : Obligations.DecodeOfEncodeIsTheOperation := by
  unfold Obligations.DecodeOfEncodeIsTheOperation
  intro c i h
  cases i with
  | decIdle => exact decode_dsel_code (Laws.Fits.small_lt (by decide : 0 < 4))
  | decWait1 => exact decode_dsel_code (Laws.Fits.small_lt (by decide : 1 < 4))
  | decWait2 => exact decode_dsel_code (Laws.Fits.small_lt (by decide : 2 < 4))
  | decNullbit => exact decode_dsel_code (Laws.Fits.small_lt (by decide : 3 < 4))
  | decBit9 | decBit8 | decBit7 | decBit6 | decBit5 | decBit4 | decBit3 | decBit2 | decBit1
  | decBit0 => exact decode_dsel_bitCode (of_decide_eq_true h)
  | decBitN i =>
    obtain ⟨hten, hN⟩ := of_decide_eq_true h
    exact (decode_dsel_bitCode hN).trans (congrArg _ (decBitInstr_of_ten_le hten))
  | unusedDsel14 | unusedDsel15 => exact decode_dsel_unused h
  | rspIdleHold => exact decode_rsel_deselected (Nat.two_pow_pos _)
  | rspIdleGo => exact decode_rsel_selected (Nat.two_pow_pos _)
  | rspWait1 =>
    exact (decode_rsel_selected (Laws.Fits.small_lt (by decide : 1 < 4))).trans
      (decodeRspState_wait1 (Bool.and_false _))
  | rspWait2 =>
    exact (decode_rsel_selected (Laws.Fits.small_lt (by decide : 2 < 4))).trans
      (decodeRspState_wait2 (Bool.and_false _))
  | rspNullbit =>
    exact (decode_rsel_selected (Laws.Fits.small_lt (by decide : 3 < 4))).trans
      (decodeRspState_nullbit (Bool.and_false _))
  | rspBit9 | rspBit8 | rspBit7 | rspBit6 | rspBit5 | rspBit4 | rspBit3 | rspBit2 | rspBit1
  | rspBit0 => exact decode_rsel_bitCode (of_decide_eq_true h)
  | rspBitN i =>
    obtain ⟨hten, hN⟩ := of_decide_eq_true h
    exact (decode_rsel_bitCode hN).trans (congrArg _ (rspBitInstr_of_ten_le hten))
  | rspAbort =>
    have ha : (c.rspAbort && true) = true := (Bool.and_true _).trans h
    exact (decode_rsel_deselected (Laws.Fits.small_lt (by decide : 1 < 4))).trans
      (decodeRspState_of_abort ha (by decide) (by simp))
  | unusedRsel14 | unusedRsel15 => exact decode_rsel_unused h
  | reset =>
    exact decode_of_rst_bit (by decide) le_rfl (Laws.Fits.reset c rfl)
  | rspCount | rspWrap => simp [Instr.format, encode, decode_csel, decodeCsel]
  | accHold | accAdd | accEmit => simp [Instr.format, encode, decode_asel, decodeAsel]
  | qNowrite | qWriteAdv | qWriteWrap => simp [Instr.format, encode, decode_qsel, decodeQsel]
  | hRdwait | hRdadv => simp [Instr.format, encode, decode_hsel, decodeHsel]
  | qRead | genInit | genSame | genNewsym | genFlip | genEmit => rfl

/-! ### What the components perform (R90, R98) -/

/-- In a tick with `rst` = 1 every component with an `rst` bit performs RESET (R90). -/
theorem perform_of_rst {f : Format} {s : State} (hf : f ∈ rstFormats) (hr : s.rst = true) :
    perform f s = exec .reset s := by
  simp only [rstFormats, List.mem_cons, List.not_mem_nil, or_false] at hf
  rcases hf with rfl | rfl | rfl | rfl | rfl | rfl
  · rw [perform_dsel, if_pos hr]; rfl
  · rw [perform_rsel, if_pos hr]; rfl
  · rw [perform_csel, if_pos hr]; rfl
  · rw [perform_asel, if_pos hr]; rfl
  · rw [perform_qsel, if_pos hr]; rfl
  · rw [perform_hsel, if_pos hr]; rfl

/-- Settles O3: the `rst` bit in a word and in a tick. -/
theorem resetBitSelectsReset : Obligations.ResetBitSelectsReset := by
  unfold Obligations.ResetBitSelectsReset
  intro f hf
  exact ⟨fun _ _ => decode_of_rst_bit hf, fun _ => perform_of_rst hf⟩

/-- Without reset the Decoder performs what its state code selects (R91, R98). -/
theorem perform_dsel_of_code {s : State} {i : Instr} (hr : s.rst = false)
    (hw : s.sys.decState < 2 ^ s.cfg.SW) (h : decodeDecState s.cfg s.sys.decState = .ok i) :
    perform .dsel s = exec i s := by
  simp [perform_dsel, hr, Nat.mod_eq_of_lt hw, h]

/-- Without reset the Responder FSM performs what cs and its state code select (R92, R98). -/
theorem perform_rsel_of_code {s : State} {i : Instr} (hr : s.rst = false)
    (hw : s.adc.rspState < 2 ^ s.cfg.SW) (h : decodeRspState s.cfg s.cs s.adc.rspState = .ok i) :
    perform .rsel s = exec i s := by
  simp [perform_rsel, hr, Nat.mod_eq_of_lt hw, h]

/-- Settles O4: the state code is decoded, an unused one is MF2. -/
theorem decoderStateSelectsOperation : Obligations.DecoderStateSelectsOperation := by
  unfold Obligations.DecoderStateSelectsOperation
  intro s hr hw hN
  have hcode {i : Instr} := perform_dsel_of_code (i := i) hr hw
  refine ⟨fun h => ?idle, fun h => ?wait1, fun h => ?wait2, fun h => ?nullbit, fun i _ hi h => ?bit,
    fun h => ?bit0, fun h => perform_dsel_unused hr h hw⟩
  case bit => exact hcode (h ▸ decodeDecState_bitCode hi)
  case bit0 => exact hcode (h ▸ decodeDecState_bitCode (i := 0) (Nat.zero_lt_of_lt hN))
  all_goals exact hcode (by rw [h]; rfl)

/-- Settles O5: cs and the state code are decoded, an unused code is MF2. -/
theorem responderStateSelectsOperation : Obligations.ResponderStateSelectsOperation := by
  unfold Obligations.ResponderStateSelectsOperation
  intro s hr hw hN
  have hcode {i : Instr} := perform_rsel_of_code (i := i) hr hw
  refine ⟨fun h hcs => ?hold, fun h hcs => ?go, fun h1 hc ho hcs => ?abort,
    fun h => perform_rsel_unused hr h hw, fun ha => ⟨fun h => ?wait1, fun h => ?wait2,
      fun h => ?nullbit, fun i _ hi h => ?bit, fun h => ?bit0⟩⟩
  case hold => exact hcode (by rw [h, hcs]; rfl)
  case go => exact hcode (by rw [h, hcs]; rfl)
  case abort =>
    exact hcode (decodeRspState_of_abort (by rw [ho, hcs]; rfl) (Nat.one_le_iff_ne_zero.1 h1) hc)
  case wait1 => exact hcode (h ▸ decodeRspState_wait1 ha)
  case wait2 => exact hcode (h ▸ decodeRspState_wait2 ha)
  case nullbit => exact hcode (h ▸ decodeRspState_nullbit ha)
  case bit => exact hcode (h ▸ decodeRspState_bitCode ha hi)
  case bit0 => exact hcode (h ▸ decodeRspState_bitCode ha (i := 0) (Nat.zero_lt_of_lt hN))

/-- Settles O1: the formats' fields, evaluated at N = 10. -/
theorem selectorWordsDecodeAsTabled : Obligations.SelectorWordsDecodeAsTabled := by
  unfold Obligations.SelectorWordsDecodeAsTabled
  exact ⟨rfl, rfl, rfl, rfl, rfl, rfl, rfl, rfl, rfl, rfl, rfl, rfl, rfl, rfl, rfl, rfl⟩

end Sys2Proof.Machine
end

section
/-!
PROOFS. A tick and its edges perform what the selector words select, all of an edge on the same pre-edge
values (R13, R98, R230), and the faults of unused state codes (R104, R256, R257).
-/

namespace Sys2Proof.Machine

/-! ### One component (R98) -/

theorem perform_eq_exec {f : Format} {s : State} {i : Instr}
    (h : decode s.cfg f (selector f s) = .ok i) : perform f s = exec i s := by
  rw [perform, h]

/-- A selector word is read from pre-edge values only (R13). -/
theorem selector_withPending (f : Format) (s : State) (p : Pending) :
    selector f (s.withPending p) = selector f s := by
  cases f <;> rfl

/-- What a component performs is the same whatever is pending (R13). -/
theorem perform_withPending {f : Format} {s : State} {i : Instr}
    (h : decode s.cfg f (selector f s) = .ok i) (p : Pending) :
    perform f (s.withPending p) = exec i (s.withPending p) :=
  perform_eq_exec (by rw [selector_withPending]; exact h)

/-- Of the operations of a tick only the queue's read has no `rst` bit (R90, R95). -/
theorem mem_rstFormats {f : Format} (hf : f ∈ edgeFormats) (hq : f ≠ .fixed .qRead) :
    f ∈ rstFormats := by
  simp only [edgeFormats, rstFormats, List.cons_append, List.nil_append, List.mem_cons] at hf ⊢
  tauto

/-- A component that completes keeps every pre-edge value, with and without reset (R13). -/
theorem exists_withPending_of_perform {f : Format} {s t : State} (hf : f ∈ edgeFormats)
    (h : perform f s = .next t) : ∃ p : Pending, t = s.withPending p := by
  cases hr : s.rst with
  | false => exact exists_withPending_of_perform_next hf h hr
  | true =>
    by_cases hq : f = .fixed .qRead
    · rw [hq, perform_qRead, execQRead_eq] at h
      cases h
      exact ⟨(readUpd s).pending, rfl⟩
    · rw [perform_of_rst (mem_rstFormats hf hq) hr] at h
      cases h
      exact ⟨s.resetNext.pending, rfl⟩

/-- A component of an edge, and then the rest of it: the operation its word selects, and the rest from the
same pre-edge values. -/
theorem andThen_perform_eq {f : Format} {s : State} {i : Instr} {p : Pending} {g g' : State → Result}
    (hf : f ∈ edgeFormats) (hi : decode s.cfg f (selector f s) = .ok i)
    (hg : ∀ q, g (s.withPending q) = g' (s.withPending q)) :
    andThen (perform f (s.withPending p)) g = andThen (exec i (s.withPending p)) g' := by
  rw [← perform_withPending hi]
  cases h : perform f (s.withPending p) with
  | next t =>
    obtain ⟨q, rfl⟩ := exists_withPending_of_perform hf h
    exact hg q
  | fault r => rfl
  | refused r => rfl

/-! ### The edges and the step (R230) -/

/-- Settles O8: component after component, each on the same pre-edge values. -/
theorem edgesRunSelectedOperations : Obligations.EdgesRunSelectedOperations := by
  unfold Obligations.EdgesRunSelectedOperations
  constructor
  · intro s d a q h hd ha hq hh
    exact andThen_perform_eq (p := s.pending) (by decide) hd fun _ =>
      andThen_perform_eq (by decide) ha fun _ =>
      andThen_perform_eq (by decide) hq fun _ =>
      andThen_perform_eq (f := .fixed .qRead) (by decide) rfl fun _ =>
      andThen_perform_eq (by decide) hh fun _ => rfl
  · intro s r k hr hk
    exact andThen_perform_eq (p := s.pending) (by decide) hr fun _ =>
      andThen_perform_eq (by decide) hk fun _ => rfl

/-- Settles O7: the step of each stage, and the operation a word selects. -/
theorem stepRunsTheSelectedOperation : Obligations.StepRunsTheSelectedOperation := by
  unfold Obligations.StepRunsTheSelectedOperation
  refine ⟨fun f s i => perform_eq_exec, fun s hs => step_run hs, fun s i hs hi => ?_, fun s hs => ?_,
    fun s hs => ?_⟩
  · simp only [step, advance, hs, perform_eq_exec hi]
  · simp only [step, advance, hs, perform_genInit, exec]
  · simp only [step, advance, hs, perform_genEmit, exec]

/-! ### Unused state codes (R104, R256, R257) -/

/-- Settles O42: the Decoder is the first component of the tick's first edge; the Responder's comes after
the `sys` edge is done. -/
theorem unusedCodeFaultsTheTick : Obligations.UnusedCodeFaultsTheTick := by
  unfold Obligations.UnusedCodeFaultsTheTick
  intro s hs hr
  rw [step_run hs, tick]
  constructor
  · intro hd hw
    have hfault := perform_dsel_unused (s := s.beginTick) hr hd hw
    rw [sysEdge, hfault]
    rfl
  · intro hd hq hrsp hw
    have hfault := perform_rsel_unused (s := midTick s) hr hrsp hw
    rw [sysEdge_upd (s := s.beginTick) hr hd hq, andThen_next]
    show adcEdge (midTick s) = _
    rw [adcEdge, hfault]
    rfl

/-- Settles O41: the rows' arms. -/
theorem unusedRowsAreMf2 : Obligations.UnusedRowsAreMf2 := by
  unfold Obligations.UnusedRowsAreMf2
  exact fun _ => ⟨rfl, rfl, rfl, rfl⟩

end Sys2Proof.Machine
end

section
/-!
PROOFS. The operand forms of R99 and R102: the Decoder's positional bit write and the Queue's truncation.
-/

namespace Sys2Proof.Machine

/-! ### The captured sample (R99, R164) -/

/-- The captured sample's pattern is the old one with `din` at its bit. -/
theorem pat_captured {s : State} {i : Nat} (hi : i < s.cfg.N) :
    pat s.cfg.N (captured s i) = setBit (pat s.cfg.N s.sys.decSample) i s.din :=
  pat_sext (setBit_lt _ (pat_lt _ _) hi)

theorem testBit_captured {s : State} {i : Nat} (hi : i < s.cfg.N) (j : Nat) :
    (pat s.cfg.N (captured s i)).testBit j =
      if j = i then s.din else (pat s.cfg.N s.sys.decSample).testBit j := by
  rw [pat_captured hi, testBit_setBit]

/-- Settles O12: the bits of the captured sample's pattern, and the range of a sign extension. -/
theorem captureWritesOneBit : Obligations.CaptureWritesOneBit := by
  unfold Obligations.CaptureWritesOneBit
  intro s i hi
  exact ⟨fitsSigned_wrap (Nat.one_le_of_lt hi) _, fun j _ => testBit_captured hi j⟩

/-! ### Truncation (R102, R211) -/

theorem fitsSigned_iff {w : Nat} {x : Int} :
    fitsSigned w x = true ↔ -((2 ^ (w - 1) : Nat) : Int) ≤ x ∧ x < ((2 ^ (w - 1) : Nat) : Int) := by
  simp [fitsSigned]

theorem natCast_pat (w : Nat) (x : Int) : ((pat w x : Nat) : Int) = x % ((2 ^ w : Nat) : Int) :=
  Int.toNat_of_nonneg (Int.emod_nonneg _ (two_pow_pos_int w).ne')

/-- Dropping the k least significant bits of a signed value of width t + k leaves one of width t. -/
theorem fitsSigned_ediv {t k : Nat} (ht : 1 ≤ t) {v : Int} (hv : fitsSigned (t + k) v = true) :
    fitsSigned t (v / ((2 ^ k : Nat) : Int)) = true := by
  have hk := two_pow_pos_int k
  have hpow : ((2 ^ (t + k - 1) : Nat) : Int) = ((2 ^ (t - 1) : Nat) : Int) * ((2 ^ k : Nat) : Int) := by
    rw [← Nat.cast_mul, ← pow_add]
    congr 2
    omega
  rw [fitsSigned_iff, hpow] at hv
  obtain ⟨hlo, hhi⟩ := hv
  exact fitsSigned_iff.2 ⟨(Int.le_ediv_iff_mul_le hk).2 (by linarith), Int.ediv_lt_of_lt_mul hk hhi⟩

/-- The pattern above its k least significant bits is the quotient's, up to a multiple of 2^t: the pattern
differs from the value by a multiple of 2^(t + k). -/
theorem sext_pat_div (t k : Nat) (v : Int) :
    sext t (pat (t + k) v / 2 ^ k) = wrap t (v / ((2 ^ k : Nat) : Int)) := by
  have hk := (two_pow_pos_int k).ne'
  have hquot : v / ((2 ^ k : Nat) : Int) =
      ((pat (t + k) v / 2 ^ k : Nat) : Int) + ((2 ^ t : Nat) : Int) * (v / ((2 ^ (t + k) : Nat) : Int)) := by
    calc v / ((2 ^ k : Nat) : Int)
        = (v % ((2 ^ (t + k) : Nat) : Int) +
            ((2 ^ k : Nat) : Int) * (((2 ^ t : Nat) : Int) * (v / ((2 ^ (t + k) : Nat) : Int)))) /
              ((2 ^ k : Nat) : Int) := by
          rw [← mul_assoc, ← Nat.cast_mul, ← pow_add, Nat.add_comm k t, Int.emod_add_mul_ediv]
      _ = _ := by rw [Int.add_mul_ediv_left _ _ hk, Int.natCast_ediv, natCast_pat]
  rw [hquot, sext, wrap, wrap, Int.add_mul_bmod_self_left]

/-- The T most significant bits of a W-bit value are its quotient by 2^(W - T) (R102). -/
theorem truncEntry_msb {c : Config} {v : Int} (hsel : c.truncSelect = .msb) (hT : 1 ≤ c.T)
    (hTW : c.T ≤ c.W) (hv : fitsSigned c.W v = true) :
    truncEntry c v = v / ((2 ^ (c.W - c.T) : Nat) : Int) := by
  have hW : c.T + (c.W - c.T) = c.W := Nat.add_sub_cancel' hTW
  have hfit := fitsSigned_ediv (t := c.T) (k := c.W - c.T) hT (by rwa [hW])
  have hquot := sext_pat_div c.T (c.W - c.T) v
  rw [hW] at hquot
  simp only [truncEntry, hsel]
  rw [hquot, wrap_of_fits hT hfit]

theorem truncEntry_lsb {c : Config} (hsel : c.truncSelect = .lsb) (v : Int) :
    truncEntry c v = wrap c.T v := by
  simp only [truncEntry, hsel]

/-- Settles O29: the integer quotient is the floor of the rational one. -/
theorem truncationIsFloorDivision : Obligations.TruncationIsFloorDivision := by
  unfold Obligations.TruncationIsFloorDivision
  intro c v hT hTW hv
  refine ⟨fun hsel => ?_, fun hsel => truncEntry_lsb hsel v⟩
  have hfloor := Rat.floor_intCast_div_natCast v (2 ^ (c.W - c.T))
  push_cast at hfloor
  rw [truncEntry_msb hsel hT hTW hv, hfloor]
  push_cast
  rfl

end Sys2Proof.Machine
end

section
/-!
PROOFS. The captured bits of a transfer as an invariant of the step (R99, R167, R168): in lock-step the line
carries the bit of the held sample that the Decoder captures, and the held sample changes only with the load,
before the first bit.
-/

namespace Sys2Proof.Machine

/-! ### What the Decoder's registers are after the `sys` edge (R160 to R165) -/

/-- The other components of the `sys` domain leave the Decoder's registers alone (R30). -/
theorem sameDec_sysUpd (s : State) (r : SysRegs) : SameDec (decUpd s r) (sysUpd s r) := by
  have hacc : SameDec (decUpd s r) (accUpd s (decUpd s r)) := by
    unfold accUpd
    split_ifs <;> exact ⟨rfl, rfl, rfl, rfl⟩
  have hqueue : SameDec (decUpd s r) (queueUpd s (accUpd s (decUpd s r))) := by
    unfold queueUpd
    split_ifs <;> exact hacc
  unfold sysUpd cursorUpd
  split_ifs <;> exact hqueue

/-- The states before the first bit: none of them captures, and the pulse ends in IDLE (R160 to R163). -/
theorem decUpd_leadIn {s : State} (hc : s.sys.decState ≤ nullbitCode) (hN : 1 ≤ s.cfg.N) (r : SysRegs) :
    (decUpd s r).decState ≤ 4 ∧
      (decUpd s r).decValid = if s.sys.decState = idleCode then false else r.decValid := by
  unfold decUpd
  split_ifs with h0 h1 h2 h3 h4
  · exact ⟨by simp [wait1Code], rfl⟩
  · exact ⟨by simp [wait2Code], rfl⟩
  · exact ⟨by simp [nullbitCode], rfl⟩
  · exact ⟨by simp only [bitCode]; omega, rfl⟩
  all_goals simp only [idleCode, wait1Code, wait2Code, nullbitCode] at *; omega

/-- BIT(i), i ≥ 1 (R164). -/
theorem decUpd_bit {s : State} {i : Nat} (hpos : 1 ≤ i) (hi : i < s.cfg.N)
    (hc : s.sys.decState = bitCode s.cfg i) (r : SysRegs) :
    decUpd s r = { r with decSample := captured s i, decState := bitCode s.cfg (i - 1) } := by
  have h4 := four_le_bitCode hi
  have hne : bitCode s.cfg i ≠ s.cfg.N + 3 := by unfold bitCode; omega
  rw [decUpd, hc, if_neg, if_neg, if_neg, if_neg, if_neg hne, sub_bitCode hi]
  all_goals simp only [idleCode, wait1Code, wait2Code, nullbitCode]; omega

/-- BIT(0) (R165). -/
theorem decUpd_bit0 {s : State} (hN : 1 ≤ s.cfg.N) (hc : s.sys.decState = bitCode s.cfg 0)
    (r : SysRegs) :
    decUpd s r =
      { r with decSample := captured s 0, decValid := true, decCs := true, decState := idleCode } := by
  have h4 := four_le_bitCode (c := s.cfg) hN
  rw [decUpd, hc, if_neg, if_neg, if_neg, if_neg]
  · exact if_pos rfl
  all_goals simp only [idleCode, wait1Code, wait2Code, nullbitCode]; omega

/-! ### What the Responder holds and drives (R131, R136) -/

/-- Only the load in WAIT1 writes the held sample (R131). -/
theorem rspHoldSample_adcUpd {s : State} (h : s.adc.rspState ≠ wait1Code) (e : Bool × Int) (r : AdcRegs) :
    (countUpd s (rspUpd s e r)).rspHoldSample = r.rspHoldSample := by
  have hcount : (countUpd s (rspUpd s e r)).rspHoldSample = (rspUpd s e r).rspHoldSample := by
    unfold countUpd
    split_ifs <;> rfl
  rw [hcount]
  unfold rspUpd
  split_ifs <;> rfl

/-- In BIT(i) the line is bit i of the held sample (R136). -/
theorem din_of_bit {s : State} {i : Nat} (hi : i < s.cfg.N) (h : s.adc.rspState = bitCode s.cfg i) :
    s.din = s.adc.rspHoldSample.testBit i := by
  have h4 := four_le_bitCode hi
  rw [State.din, dout, h, if_neg, if_neg, if_pos (bitCode_le _ _), sub_bitCode hi]
  all_goals simp only [wait2Code, nullbitCode]; omega

/-! ### The captured bits (R99, R168) -/

/-- Before the first bit nothing of the transfer is captured. -/
theorem State.captured_of_leadIn {t : State} (hc : t.sys.decState ≤ 4) (hv : t.sys.decValid = false) :
    t.Captured := by
  refine ⟨fun i hi hlt => ?_, fun h => ?_⟩
  · have := four_le_bitCode hi
    omega
  · rw [hv] at h
    cases h

/-- A signed value is the sign extension of the pattern that has its bits. -/
theorem eq_sext_of_testBit {w v : Nat} {x : Int} (hw : 1 ≤ w) (hx : fitsSigned w x = true)
    (hv : v < 2 ^ w) (h : ∀ j < w, (pat w x).testBit j = v.testBit j) : x = sext w v := by
  have hpat : pat w x = v := by
    refine Nat.eq_of_testBit_eq fun j => ?_
    by_cases hj : j < w
    · exact h j hj
    · have hpow : 2 ^ w ≤ 2 ^ j := Nat.pow_le_pow_right (by norm_num) (not_lt.1 hj)
      rw [Nat.testBit_lt_two_pow ((pat_lt w x).trans_le hpow),
        Nat.testBit_lt_two_pow (hv.trans_le hpow)]
  rw [← hpat, sext_pat_of_fits hw hx]

/-- With bit i the bits from i on are the held sample's: the line carries bit i, and the bits above it are
captured already. -/
theorem testBit_captured_eq_hold {s : State} {i : Nat} (hi : i < s.cfg.N) (hlock : s.Lockstep)
    (hcap : s.Captured) (hc : s.sys.decState = bitCode s.cfg i) {j : Nat} (hij : i ≤ j)
    (hj : j < s.cfg.N) :
    (pat s.cfg.N (captured s i)).testBit j = s.adc.rspHoldSample.testBit j := by
  obtain ⟨hstate, -, -⟩ := hlock
  obtain ⟨hbits, -⟩ := hcap
  rw [testBit_captured hi]
  by_cases h : j = i
  · rw [if_pos h, h, din_of_bit hi (hstate ▸ hc)]
  · rw [if_neg h]
    exact hbits j hj (by rw [hc]; unfold bitCode; omega)

/-! ### The step -/

/-- The registers after a tick without reset, as the components' writes (R230). -/
theorem tick_next_regs {s t : State} (hw : s.Wf) (hr : s.nextRst = false) (h : tick s = .next t) :
    t.cfg = s.cfg ∧ t.sys = sysUpd s.beginTick s.sys ∧
      ∃ e, t.adc = countUpd (midTick s) (rspUpd (midTick s) e s.adc) := by
  obtain ⟨e, he⟩ := exists_entry_of_tick_next hw hr h
  obtain ⟨-, -, -, ⟨hdec, -⟩, ⟨hrsp, -⟩, -⟩ := id hw
  rw [tick_upd hr hdec hw.qWr_lt hrsp he] at h
  cases h
  exact ⟨rfl, rfl, e, rfl⟩

/-- A used state code is one before the first bit or the code of a bit (R91). -/
theorem leadIn_or_bitCode {c : Config} {code : Nat} (h : code ≤ c.N + 3) :
    code ≤ nullbitCode ∨ ∃ i < c.N, code = bitCode c i := by
  by_cases hc : code ≤ nullbitCode
  · exact .inl hc
  · simp only [nullbitCode, not_le] at hc
    exact .inr ⟨c.N + 3 - code, by omega, by unfold bitCode; omega⟩

/-- A tick keeps the captured bits the held sample's (R168): by the Decoder's state, with nothing captured
before the first bit, one bit more in BIT(i), and the whole sample after BIT(0). -/
theorem tick_captured {s t : State} (hw : s.Wf) (hlock : s.Lockstep) (hcap : s.Captured)
    (h : tick s = .next t) : t.Captured := by
  obtain ⟨hlegal, -, -, ⟨hdec, -⟩, ⟨-, -, -, hhold⟩, -⟩ := id hw
  obtain ⟨hsame, -, hpulse⟩ := id hlock
  have hN : 1 ≤ s.cfg.N := Nat.one_le_of_lt hlegal.inRange.sampleWidth
  cases hr : s.nextRst with
  | true =>
    rw [tick_reset hr] at h
    cases h
    exact State.captured_of_leadIn (Nat.zero_le _) rfl
  | false =>
    obtain ⟨hcfg, hsys, e, hadc⟩ := tick_next_regs hw hr h
    obtain ⟨hstate, -, hvalid, hsample⟩ : SameDec (decUpd s s.sys) t.sys :=
      hsys ▸ sameDec_sysUpd s.beginTick s.sys
    have hquiet (hne : s.sys.decState ≠ idleCode) : s.sys.decValid = false :=
      Bool.eq_false_iff.2 (mt hpulse hne)
    rcases leadIn_or_bitCode hdec with hlead | ⟨i, hi, hbit⟩
    · obtain ⟨hle, hv⟩ := decUpd_leadIn hlead hN s.sys
      rw [← hstate] at hle
      rw [← hvalid] at hv
      refine State.captured_of_leadIn hle (hv.trans ?_)
      split_ifs with h0
      exacts [rfl, hquiet h0]
    · have h4 := four_le_bitCode hi
      have hkeep : t.adc.rspHoldSample = s.adc.rspHoldSample := by
        have hne : (midTick s).adc.rspState ≠ wait1Code := by
          show s.adc.rspState ≠ wait1Code
          rw [← hsame, hbit, wait1Code]
          omega
        rw [hadc, rspHoldSample_adcUpd hne]
      have heq {j : Nat} := testBit_captured_eq_hold hi hlock hcap hbit (j := j)
      unfold State.Captured
      rw [hstate, hvalid, hsample, hkeep, hcfg]
      rcases Nat.eq_zero_or_pos i with rfl | hpos
      · rw [decUpd_bit0 hN hbit]
        refine ⟨fun j _ hlt => absurd hlt (Nat.not_lt_zero _), fun _ => ?_⟩
        exact eq_sext_of_testBit hN (fitsSigned_captured hlegal.inRange 0) hhold
          fun j hj => heq (Nat.zero_le j) hj
      · rw [decUpd_bit hpos hi hbit]
        refine ⟨fun j hj hlt => heq ?_ hj, fun hv => ?_⟩
        · simp only [bitCode] at hlt
          omega
        · have hidle : s.sys.decState = idleCode := hpulse hv
          rw [hbit, idleCode] at hidle
          omega

/-- Settles O56: the step of a well-formed state is a tick, and a tick keeps what is captured. -/
theorem stepKeepsCaptured : Obligations.StepKeepsCaptured := by
  unfold Obligations.StepKeepsCaptured
  intro s t hw hlock hcap h
  obtain ⟨-, hrun, -⟩ := id hw
  rw [step_run hrun] at h
  exact tick_captured hw hlock hcap h

end Sys2Proof.Machine
end

section
/-!
PROOFS. The Generator's arithmetic and its operations (R110 to R122): what the two roundings do, what that
bounds a sample by, the argument of the cosine across a flip, and the operations one by one.
-/

namespace Sys2Proof

namespace Machine

/-! ### The roundings (R116) -/

theorem truncQ_of_nonneg {x : Rat} (h : 0 ≤ x) : truncQ x = ⌊x⌋ :=
  if_pos h

theorem truncQ_of_neg {x : Rat} (h : x < 0) : truncQ x = ⌈x⌉ := by
  have hceil : truncQ x = -⌊-x⌋ := if_neg (not_le.2 h)
  rw [hceil, Int.floor_neg, neg_neg]

theorem sub_truncQ_of_nonneg {x : Rat} (h : 0 ≤ x) : 0 ≤ x - truncQ x ∧ x - truncQ x < 1 := by
  rw [truncQ_of_nonneg h]
  exact ⟨Int.fract_nonneg x, Int.fract_lt_one x⟩

theorem sub_truncQ_of_neg {x : Rat} (h : x < 0) : x - truncQ x ≤ 0 ∧ -1 < x - truncQ x := by
  have hle := Int.le_ceil x
  have hlt := Int.ceil_lt_add_one x
  rw [truncQ_of_neg h]
  constructor <;> linarith

/-- Off a tie the nearer neighbour is taken, on a tie the even one. -/
theorem roundHalfEven_cases (x : Rat) :
    (Int.fract x < 1 / 2 ∧ roundHalfEven x = ⌊x⌋) ∨
    (1 / 2 < Int.fract x ∧ roundHalfEven x = ⌊x⌋ + 1) ∨
    (Int.fract x = 1 / 2 ∧ roundHalfEven x % 2 = 0 ∧
      (roundHalfEven x = ⌊x⌋ ∨ roundHalfEven x = ⌊x⌋ + 1)) := by
  have h : roundHalfEven x = if Int.fract x < 1 / 2 then ⌊x⌋
      else if 1 / 2 < Int.fract x then ⌊x⌋ + 1 else if ⌊x⌋ % 2 = 0 then ⌊x⌋ else ⌊x⌋ + 1 := rfl
  split_ifs at h with hlt hgt heven
  · exact .inl ⟨hlt, h⟩
  · exact .inr (.inl ⟨hgt, h⟩)
  · exact .inr (.inr ⟨le_antisymm (not_lt.1 hgt) (not_lt.1 hlt), by rwa [h], .inl h⟩)
  · exact .inr (.inr ⟨le_antisymm (not_lt.1 hgt) (not_lt.1 hlt), by omega, .inr h⟩)

theorem sub_roundHalfEven_of_floor {x : Rat} (h : roundHalfEven x = ⌊x⌋) :
    |x - roundHalfEven x| = Int.fract x := by
  rw [h]
  exact abs_of_nonneg (Int.fract_nonneg x)

theorem sub_roundHalfEven_of_floor_add_one {x : Rat} (h : roundHalfEven x = ⌊x⌋ + 1) :
    |x - roundHalfEven x| = 1 - Int.fract x := by
  have hx := Int.floor_add_fract x
  have hlt := Int.fract_lt_one x
  rw [h, abs_of_nonpos] <;> push_cast <;> linarith

theorem abs_sub_roundHalfEven_le (x : Rat) : |x - roundHalfEven x| ≤ 1 / 2 := by
  rcases roundHalfEven_cases x with ⟨hf, h⟩ | ⟨hf, h⟩ | ⟨hf, -, h | h⟩
  · rw [sub_roundHalfEven_of_floor h]; exact hf.le
  · rw [sub_roundHalfEven_of_floor_add_one h]; linarith
  · rw [sub_roundHalfEven_of_floor h, hf]
  · rw [sub_roundHalfEven_of_floor_add_one h, hf]; norm_num

theorem even_roundHalfEven_of_tie {x : Rat} (ht : |x - roundHalfEven x| = 1 / 2) :
    roundHalfEven x % 2 = 0 := by
  rcases roundHalfEven_cases x with ⟨hf, h⟩ | ⟨hf, h⟩ | ⟨-, heven, -⟩
  · rw [sub_roundHalfEven_of_floor h] at ht
    exact absurd ht hf.ne
  · rw [sub_roundHalfEven_of_floor_add_one h] at ht
    linarith
  · exact heven

/-- Settles O46: truncation is the floor above 0 and the ceiling below it; the other rounding by its
three cases. -/
theorem quantisersRoundAsStated : Obligations.QuantisersRoundAsStated := by
  unfold Obligations.QuantisersRoundAsStated
  intro x
  exact ⟨sub_truncQ_of_nonneg, sub_truncQ_of_neg, abs_sub_roundHalfEven_le x,
    even_roundHalfEven_of_tie⟩

/-! ### The range of a sample (R122) -/

/-- Either rounding moves a number by less than one. -/
theorem abs_sub_quant_lt_one (m : QuantRound) (x : Rat) : |x - quant m x| < 1 := by
  cases m with
  | trunc =>
    rw [quant, abs_lt]
    by_cases hx : 0 ≤ x
    · obtain ⟨h0, h1⟩ := sub_truncQ_of_nonneg hx
      exact ⟨by linarith, h1⟩
    · obtain ⟨h0, h1⟩ := sub_truncQ_of_neg (not_le.1 hx)
      exact ⟨h1, by linarith⟩
  | nearestEven => exact (abs_sub_roundHalfEven_le x).trans_lt (by norm_num)

/-- So rounding does not leave a range with integer ends. -/
theorem abs_quant_le (m : QuantRound) {x : Rat} {n : Int} (h : |x| ≤ n) : |quant m x| ≤ n := by
  obtain ⟨hlo, hhi⟩ := abs_lt.1 (abs_sub_quant_lt_one m x)
  obtain ⟨hxlo, hxhi⟩ := abs_le.1 h
  have h1 : (quant m x : Rat) < n + 1 := by linarith
  have h2 : (-n - 1 : Rat) < quant m x := by linarith
  rw [abs_le]
  constructor
  · have : -n - 1 < quant m x := by exact_mod_cast h2
    omega
  · have : quant m x < n + 1 := by exact_mod_cast h1
    omega

/-- Without a bias a sample is a rounded fraction of the full scale `2^(N-1) - 1` (R116). -/
theorem abs_genSample_le {c : Config} (hb : c.quantBias = 0) (t : Nat) (v : GenVars) :
    |genSample c t v| ≤ 2 ^ (c.N - 1) - 1 := by
  have hscale : (0 : Rat) ≤ ((2 ^ (c.N - 1) : Nat) : Rat) - 1 :=
    sub_nonneg.2 (by exact_mod_cast Nat.one_le_two_pow)
  have hcos : |cosTurns c (genArg c t v)| ≤ 1 := abs_le.2 (cosTurns_mem c _)
  rw [genSample, quantise, hb, add_zero]
  apply abs_quant_le
  rw [abs_mul, abs_of_nonneg hscale]
  calc |cosTurns c (genArg c t v)| * (((2 ^ (c.N - 1) : Nat) : Rat) - 1)
      ≤ 1 * (((2 ^ (c.N - 1) : Nat) : Rat) - 1) := mul_le_mul_of_nonneg_right hcos hscale
    _ = ((2 ^ (c.N - 1) - 1 : Int) : Rat) := by push_cast; ring

theorem fitsSigned_genSample {c : Config} (hb : c.quantBias = 0) (t : Nat) (v : GenVars) :
    fitsSigned c.N (genSample c t v) = true := by
  obtain ⟨hlo, hhi⟩ := abs_le.1 (abs_genSample_le hb t v)
  rw [fitsSigned_iff]
  push_cast
  omega

/-! ### The Generator's operations (R112 to R116) -/

theorem bitOf_of_lt {c : Config} {s : Nat} (h : s < c.B) : c.bitOf s = c.bits[s]? :=
  if_pos h

theorem bitOf_of_le {c : Config} {s : Nat} (h : c.B ≤ s) : c.bitOf s = none :=
  if_neg (not_lt.2 h)

theorem execGenInit_of_bit {s : State} {b : Bool} (h : s.cfg.bitOf 0 = some b) :
    execGenInit s = .next (((s.setGen (genStart b)).setGenT 0).setTable []) := by
  rw [execGenInit, h]

theorem execGenInit_of_no_bit {s : State} (h : s.cfg.bitOf 0 = none) :
    execGenInit s = .refused (.ce3ZeroCount .B) := by
  rw [execGenInit, h]

theorem execGenNewsym_of_bit {s : State} {b : Bool} (h : s.cfg.bitOf (genSym s.cfg s.genT) = some b) :
    execGenNewsym s = .next (s.setGen (genNewsymVars s.cfg s.genT s.gen)) := by
  rw [execGenNewsym, h]

theorem execGenNewsym_of_no_bit {s : State} (h : s.cfg.bitOf (genSym s.cfg s.genT) = none) :
    execGenNewsym s = .refused (.ce4BadConfig (.symbol s.genT (genSym s.cfg s.genT))) := by
  rw [execGenNewsym, h]

theorem execGenFlip_of_bit {s : State} {b : Bool} (h : s.cfg.bitOf (genSym s.cfg s.genT) = some b) :
    execGenFlip s = .next (s.setGen (genFlipVars s.cfg s.genT b s.gen)) := by
  rw [execGenFlip, h]

theorem execGenFlip_of_no_bit {s : State} (h : s.cfg.bitOf (genSym s.cfg s.genT) = none) :
    execGenFlip s = .refused (.ce4BadConfig (.symbol s.genT (genSym s.cfg s.genT))) := by
  rw [execGenFlip, h]

theorem execGenEmit_of_fits {s : State}
    (h : fitsSigned s.cfg.N (genSample s.cfg s.genT s.gen) = true) :
    execGenEmit s = .next (s.setTable
      (tablePut s.gtab s.genT (s.gen.curBit, genSample s.cfg s.genT s.gen))) :=
  if_pos h

theorem execGenEmit_of_not_fits {s : State}
    (h : fitsSigned s.cfg.N (genSample s.cfg s.genT s.gen) = false) :
    execGenEmit s =
      .refused (.ce2WidthTooSmall (.tableValue s.genT (genSample s.cfg s.genT s.gen))) :=
  if_neg (by simp [h])

/-- Settles O45: a cosine is at most 1 and a rounding leaves no range with integer ends. -/
theorem unbiasedSamplesFit : Obligations.UnbiasedSamplesFit := by
  unfold Obligations.UnbiasedSamplesFit
  refine ⟨fun c t v _ hb => ?_, fun s _ hb => ?_⟩
  · obtain ⟨hlo, hhi⟩ := abs_le.1 (abs_genSample_le hb t v)
    exact ⟨hlo, hhi, fitsSigned_genSample hb t v⟩
  · exact ⟨_, execGenEmit_of_fits (fitsSigned_genSample hb s.genT s.gen)⟩

/-- The entry written, at an index the table reaches (R116, R117). -/
theorem getElem?_tablePut {tbl : List (Bool × Int)} {t : Nat} (ht : t ≤ tbl.length)
    (e : Bool × Int) : (tablePut tbl t e)[t]? = some e := by
  have hlen : (tbl.take t).length = t := List.length_take_of_le ht
  rw [tablePut, List.getElem?_append_right hlen.le, hlen, Nat.sub_self, List.getElem?_cons_zero]

theorem getElem?_tablePut_of_ne {tbl : List (Bool × Int)} {t i : Nat} (ht : t ≤ tbl.length)
    (e : Bool × Int) (hi : i ≠ t) : (tablePut tbl t e)[i]? = tbl[i]? := by
  have hlen : (tbl.take t).length = t := List.length_take_of_le ht
  rcases Nat.lt_or_gt_of_ne hi with hlt | hgt
  · rw [tablePut, List.getElem?_append_left (by omega), List.getElem?_take_of_lt hlt]
  · obtain ⟨k, rfl⟩ := Nat.exists_eq_add_of_lt hgt
    rw [tablePut, List.getElem?_append_right (by omega), hlen,
      show t + k + 1 - t = k + 1 by omega, List.getElem?_cons_succ, List.getElem?_drop]
    congr 1
    omega

/-- At its end an entry is appended to the table. -/
theorem tablePut_length (tbl : List (Bool × Int)) (e : Bool × Int) :
    tablePut tbl tbl.length e = tbl ++ [e] := by
  simp [tablePut]

/-- Settles O43: each operation by what it does with and without the bit, or the sample, it needs. -/
theorem generatorOperationsComplete : Obligations.GeneratorOperationsComplete := by
  unfold Obligations.GeneratorOperationsComplete
  intro s
  refine ⟨fun b hB hb => ?init, fun hB => ?noBits, rfl, fun b hsym hb => ?symbol,
    fun hsym => ?noSymbol, fun hfit ht => ?emit, fun hfit => ?noFit⟩
  case init => exact execGenInit_of_bit ((bitOf_of_lt hB).trans hb)
  case noBits => exact execGenInit_of_no_bit (bitOf_of_le hB.le)
  case symbol =>
    have hbit := (bitOf_of_lt hsym).trans hb
    exact ⟨execGenNewsym_of_bit hbit, execGenFlip_of_bit hbit⟩
  case noSymbol =>
    have hbit := bitOf_of_le hsym
    exact ⟨execGenNewsym_of_no_bit hbit, execGenFlip_of_no_bit hbit⟩
  case emit =>
    exact ⟨_, execGenEmit_of_fits hfit, rfl, getElem?_tablePut ht _,
      fun i hi _ => getElem?_tablePut_of_ne ht _ hi⟩
  case noFit => exact execGenEmit_of_not_fits hfit

/-! ### The argument of the cosine across a flip (R119) -/

/-- The argument is the current tone's turns and the phase (R116). -/
theorem value_genArg (c : Config) (t : Nat) (v : GenVars) :
    (genArg c t v).value c =
      (genTurns c t : ℝ) * (genFreq c v.curBit).value + v.phase.value c := by
  rw [genArg, Turns.value_add, Turns.value_ofTone]

/-- The phase after a flip (R115). -/
theorem value_phase_genFlipVars (c : Config) (t : Nat) (b : Bool) (v : GenVars) :
    (genFlipVars c t b v).phase.value c = v.phase.value c +
      (genTurns c t : ℝ) * ((genFreq c v.curBit).value - (genFreq c b).value) := by
  simp only [genFlipVars, Turns.value_add, Turns.value_sub, Turns.value_ofTone]
  ring

/-- The new phase makes up for the change of tone. -/
theorem value_genArg_genFlipVars (c : Config) (t : Nat) (b : Bool) (v : GenVars) :
    (genArg c t (genFlipVars c t b v)).value c = (genArg c t v).value c := by
  have hbit : (genFlipVars c t b v).curBit = b := rfl
  rw [value_genArg, value_genArg, value_phase_genFlipVars, hbit]
  ring

/-- `coeff` grows by the same amount each index (R110). -/
theorem genTurns_succ (c : Config) (t : Nat) : genTurns c (t + 1) = genTurns c t + genTurns c 1 := by
  simp only [genTurns]
  push_cast
  ring

/-- Settles O44: across the flip the argument is the old tone's, whose increment is one of `coeff`. -/
theorem phaseContinuousAtFlip : Obligations.PhaseContinuousAtFlip := by
  unfold Obligations.PhaseContinuousAtFlip
  intro c t b v ht
  refine ⟨value_genArg_genFlipVars c t b v, ?_, value_phase_genFlipVars c t b v,
    value_genArg c t v⟩
  obtain ⟨u, rfl⟩ := Nat.exists_eq_add_of_le' ht
  rw [value_genArg_genFlipVars, value_genArg, value_genArg, genTurns_succ, Nat.add_sub_cancel]
  push_cast
  ring

end Machine

end Sys2Proof
end

section
/-!
PROOFS. Construction with a bit sequence (R117, R120, R252, R270): the Generator's variables and entry at
each index, the state the construction is in before each index, what the two steps of an index do to it, and
the whole of it by induction over the indices.
-/

namespace Sys2Proof

namespace Machine

/-! ### The Generator's table index by index (R117) -/

/-- The variables before the operations of index t. -/
def genVarsAt (c : Config) : Nat → GenVars
  | 0 => genStart (c.bits.headD false)
  | t + 1 => genIndexVars c t (genVarsAt c t)

/-- The entry of index t, made from the variables its GSEL operation leaves. -/
def genEntryAt (c : Config) (t : Nat) : Bool × Int :=
  ((genVarsAt c (t + 1)).curBit, genSample c t (genVarsAt c (t + 1)))

/-- The entries of the indices below t. -/
def genTable (c : Config) (t : Nat) : List (Bool × Int) :=
  (List.range t).map (genEntryAt c)

@[simp] theorem length_genTable (c : Config) (t : Nat) : (genTable c t).length = t := by
  simp [genTable]

theorem genTable_succ (c : Config) (t : Nat) :
    genTable c (t + 1) = genTable c t ++ [genEntryAt c t] := by
  simp [genTable, List.range_succ]

theorem genEntriesFrom_eq_map (c : Config) (n t : Nat) :
    genEntriesFrom c n t (genVarsAt c t) = (List.range' t n).map (genEntryAt c) := by
  induction n generalizing t with
  | zero => rfl
  | succ n ih =>
    rw [List.range'_succ, List.map_cons, ← ih (t + 1)]
    rfl

/-- The table of R117 holds the entries of all L indices. -/
theorem genEntries_eq_genTable (c : Config) : genEntries c = genTable c c.L := by
  rw [genTable, List.range_eq_range', ← genEntriesFrom_eq_map]
  rfl

theorem getElem?_genEntries {c : Config} {t : Nat} (h : t < c.L) :
    (genEntries c)[t]? = some (genEntryAt c t) := by
  simp [genEntries_eq_genTable, genTable, h]

theorem lt_of_getElem?_genEntries {c : Config} {t : Nat} {e : Bool × Int}
    (h : (genEntries c)[t]? = some e) : t < c.L ∧ genEntryAt c t = e := by
  have ht : t < c.L := by
    simpa [genEntries_eq_genTable] using (List.getElem?_eq_some_iff.1 h).1
  exact ⟨ht, Option.some.inj ((getElem?_genEntries ht).symm.trans h)⟩

/-- Only symbols of the sequence become `last_sym`. -/
theorem lastSym_genVarsAt_lt {c : Config} (hB : 1 ≤ c.B) (t : Nat) : (genVarsAt c t).lastSym < c.B := by
  induction t with
  | zero => exact hB
  | succ t ih =>
    rw [genVarsAt, genIndexVars]
    split
    · exact ih
    · split
      · exact ih
      · next b hb =>
        have hsym : genSym c t < c.B := by
          by_contra h
          rw [bitOf_of_le (not_lt.1 h)] at hb
          cases hb
        split <;> exact hsym

/-! ### The GSEL operation (R113 to R115, R120) -/

/-- At a symbol of the sequence the selected operation makes the variables of R113 to R115. -/
theorem perform_gsel_of_bit {s : State} {b : Bool}
    (h : s.cfg.bitOf (genSym s.cfg s.genT) = some b) :
    perform .gsel s = .next (s.setGen (genIndexVars s.cfg s.genT s.gen)) := by
  rw [perform_gsel, genIndexVars]
  by_cases hsame : genSym s.cfg s.genT = s.gen.lastSym
  · have hn : s.newSym = false := by simp [State.newSym, hsame]
    rw [hn, if_pos hsame]
    rfl
  · have hn : s.newSym = true := by simp [State.newSym, hsame]
    have hf : s.flip = (b != s.gen.curBit) := by simp [State.flip, hn, h]
    rw [hn, hf, if_neg hsame, h]
    by_cases hb : b = s.gen.curBit
    · simp [hb, execGenNewsym_of_bit h]
    · simp [hb, execGenFlip_of_bit h]

/-- At a new symbol past the sequence it is CE4. -/
theorem perform_gsel_of_no_bit {s : State} (hnew : genSym s.cfg s.genT ≠ s.gen.lastSym)
    (h : s.cfg.bitOf (genSym s.cfg s.genT) = none) :
    perform .gsel s = .refused (.ce4BadConfig (.symbol s.genT (genSym s.cfg s.genT))) := by
  have hn : s.newSym = true := by simp [State.newSym, hnew]
  have hf : s.flip = false := by simp [State.flip, h]
  rw [perform_gsel, hn, hf]
  exact execGenNewsym_of_no_bit h

/-! ### Steps (R237) -/

theorem run_succ_of_next {M : Host.Core} {s t : M.State} (k : Nat) (h : M.step s = .next t) :
    M.run (k + 1) s = M.run k t := by
  rw [Host.Core.run, h]

theorem run_succ_of_fault {M : Host.Core} {s : M.State} {r : M.Fault} (k : Nat)
    (h : M.step s = .fault r) : M.run (k + 1) s = .fault r := by
  rw [Host.Core.run, h]

theorem run_succ_of_refused {M : Host.Core} {s : M.State} {r : M.Refusal} (k : Nat)
    (h : M.step s = .refused r) : M.run (k + 1) s = .refused r := by
  rw [Host.Core.run, h]

theorem stepsFrom_zero (s : State) : stepsFrom 0 s = .next s := rfl

theorem stepsFrom_succ (k : Nat) (s : State) : stepsFrom (k + 1) s = andThen (step s) (stepsFrom k) := by
  cases h : step s with
  | next t => exact run_succ_of_next (M := Sys2Proof.core) k h
  | fault r => exact run_succ_of_fault (M := Sys2Proof.core) k h
  | refused r => exact run_succ_of_refused (M := Sys2Proof.core) k h

theorem stepsFrom_one (s : State) : stepsFrom 1 s = step s := by
  rw [stepsFrom_succ]
  cases step s <;> rfl

theorem stepsFrom_add (m n : Nat) (s : State) :
    stepsFrom (m + n) s = andThen (stepsFrom m s) (stepsFrom n) := by
  induction m generalizing s with
  | zero => rw [Nat.zero_add, stepsFrom_zero, andThen_next]
  | succ m ih =>
    rw [Nat.add_right_comm, stepsFrom_succ, stepsFrom_succ]
    cases step s with
    | next t => exact ih t
    | fault | refused => rfl

/-! ### The steps of construction with a bit sequence (R252) -/

/-- Before index t: the table so far and the variables; after the last index the checks 5 to 7 are next. -/
def State.atIndex (c : Config) (t : Nat) : State :=
  { State.powerOn c (genTable c t) with
    stage := if t < c.L then .genSelect else .finish
    genT := t
    gen := genVarsAt c t }

/-- Between the two operations of index t. -/
def State.atEmit (c : Config) (t : Nat) : State :=
  { State.atIndex c t with stage := .genEmit, gen := genVarsAt c (t + 1) }

theorem length_bits_of_legal {c : Config} (h : c.Legal) {bs : List Bool} (hs : c.source = .bits bs) :
    c.bits.length = c.B := by
  rw [Config.bits, hs]
  exact h.inRange.bitCount bs hs

theorem exists_bitOf {c : Config} (hlen : c.bits.length = c.B) {s : Nat} (h : s < c.B) :
    ∃ b, c.bitOf s = some b :=
  ⟨_, (bitOf_of_lt h).trans (List.getElem?_eq_getElem (hlen ▸ h))⟩

theorem bitOf_zero {c : Config} (hlen : c.bits.length = c.B) (hB : 1 ≤ c.B) :
    c.bitOf 0 = some (c.bits.headD false) := by
  rw [bitOf_of_lt hB]
  cases hbits : c.bits with
  | nil => simp [hbits] at hlen; omega
  | cons b bs => rfl

/-- The checks and GEN.INIT lead to index 0. -/
theorem stepsFrom_two_unbuilt {c : Config} (h : c.Legal) {bs : List Bool} (hs : c.source = .bits bs) :
    stepsFrom 2 (State.unbuilt c.proposal) = .next (State.atIndex c 0) := by
  have hB := h.inRange.symbols
  have hL : 0 < c.L := Nat.mul_pos h.inRange.perBit hB
  have hcheck : step (State.unbuilt c.proposal) =
      .next { State.powerOn c [] with stage := .genInit } := by
    have hsrc : c.proposal.source = .bits bs := hs
    show constructStep c.proposal (State.unbuilt c.proposal) = _
    rw [constructStep, show firstError c.proposal.paramChecks = none from h, hsrc]
    rfl
  have hinit : step { State.powerOn c [] with stage := .genInit } = .next (State.atIndex c 0) := by
    show andThen (execGenInit _) _ = _
    rw [execGenInit_of_bit (bitOf_zero (length_bits_of_legal h hs) hB), andThen_next, State.atIndex,
      if_pos hL]
    rfl
  rw [stepsFrom_succ, hcheck, andThen_next, stepsFrom_one, hinit]

section

variable {c : Config} {t : Nat} (ht : t < c.L)
include ht

theorem step_atIndex : step (State.atIndex c t) =
    andThen (perform .gsel (State.atIndex c t)) fun s => .next (s.setStage .genEmit) := by
  have hstage : (State.atIndex c t).stage = .genSelect := if_pos ht
  rw [step, advance, hstage]

/-- The first step of an index with a symbol. -/
theorem step_atIndex_of_symbol (hlen : c.bits.length = c.B) (hsym : genSym c t < c.B) :
    step (State.atIndex c t) = .next (State.atEmit c t) := by
  obtain ⟨b, hb⟩ := exists_bitOf hlen hsym
  rw [step_atIndex ht, perform_gsel_of_bit (s := State.atIndex c t) hb]
  rfl

/-- The first step of the first index without one (R120). -/
theorem step_atIndex_of_no_symbol (hB : 1 ≤ c.B) (hsym : c.B ≤ genSym c t) :
    step (State.atIndex c t) = .refused (.ce4BadConfig (.symbol t (genSym c t))) := by
  have hnew : genSym c t ≠ (genVarsAt c t).lastSym :=
    ((lastSym_genVarsAt_lt hB t).trans_le hsym).ne'
  rw [step_atIndex ht, perform_gsel_of_no_bit (s := State.atIndex c t) hnew (bitOf_of_le hsym)]
  rfl

end

theorem step_atEmit (c : Config) (t : Nat) : step (State.atEmit c t) =
    andThen (execGenEmit (State.atEmit c t)) fun s => .next (genAdvance s) := rfl

/-- The second step of an index whose sample fits appends its entry. -/
theorem step_atEmit_of_fits {c : Config} {t : Nat} (hfit : fitsSigned c.N (genEntryAt c t).2 = true) :
    step (State.atEmit c t) = .next (State.atIndex c (t + 1)) := by
  have happend : tablePut (genTable c t) t (genEntryAt c t) = genTable c (t + 1) := by
    rw [genTable_succ, ← tablePut_length, length_genTable]
  rw [step_atEmit, execGenEmit_of_fits (s := State.atEmit c t) hfit, andThen_next, State.atIndex,
    ← happend]
  rfl

/-- The second step of an index whose sample does not (R122). -/
theorem step_atEmit_of_not_fits {c : Config} {t : Nat}
    (hfit : fitsSigned c.N (genEntryAt c t).2 = false) :
    step (State.atEmit c t) = .refused (.ce2WidthTooSmall (.tableValue t (genEntryAt c t).2)) := by
  rw [step_atEmit, execGenEmit_of_not_fits (s := State.atEmit c t) hfit]
  rfl

/-- Index t has a symbol and a sample of N bits, so it raises no construction error (R120, R122). -/
def IndexPasses (c : Config) (t : Nat) : Prop :=
  genSym c t < c.B ∧ fitsSigned c.N (genEntryAt c t).2 = true

/-- Construction reaches every index before which none fails. -/
theorem stepsFrom_atIndex {c : Config} (h : c.Legal) {bs : List Bool} (hs : c.source = .bits bs) {t : Nat}
    (ht : t ≤ c.L) (hpass : ∀ u < t, IndexPasses c u) :
    stepsFrom (2 * t + 2) (State.unbuilt c.proposal) = .next (State.atIndex c t) := by
  induction t with
  | zero => exact stepsFrom_two_unbuilt h hs
  | succ t ih =>
    obtain ⟨hsym, hfit⟩ := hpass t (Nat.lt_succ_self t)
    rw [show 2 * (t + 1) + 2 = (2 * t + 2) + 2 by ring, stepsFrom_add,
      ih (Nat.le_of_lt ht) fun u hu => hpass u (Nat.lt_succ_of_lt hu), andThen_next, stepsFrom_succ,
      step_atIndex_of_symbol ht (length_bits_of_legal h hs) hsym, andThen_next, stepsFrom_one,
      step_atEmit_of_fits hfit]

/-! ### The checks after the table (R252 checks 5 to 7) -/

theorem queueInitError_of_fits {c : Config} {l : List Int} (h : ∀ v ∈ l, fitsSigned c.T v = true)
    (i : Nat) : queueInitError c i l = none := by
  induction l generalizing i with
  | nil => rfl
  | cons v l ih =>
    obtain ⟨hv, hl⟩ := List.forall_mem_cons.1 h
    rw [queueInitError, if_pos hv, ih hl]

/-- The first value outside T bits is reported, with its place in the list counted from i on. -/
theorem queueInitError_of_first {c : Config} {l : List Int} {k : Nat} {v : Int} (hk : l[k]? = some v)
    (hv : fitsSigned c.T v = false) (hbefore : ∀ j u, j < k → l[j]? = some u → fitsSigned c.T u = true)
    (i : Nat) : queueInitError c i l = some (.ce4BadConfig (.queueInit (i + k) v)) := by
  induction l generalizing i k with
  | nil => cases hk
  | cons w l ih =>
    cases k with
    | zero =>
      cases hk
      rw [queueInitError, if_neg (by simp [hv])]
      rfl
    | succ k =>
      have hw := hbefore 0 w (Nat.succ_pos k) rfl
      rw [queueInitError, if_pos hw,
        ih hk (fun j u hj hu => hbefore (j + 1) u (Nat.succ_lt_succ hj) hu), Nat.add_right_comm]
      rfl

/-- No wire reads itself through others (R232, R251). -/
theorem wireCycle_wireReads : wireCycle wireReads = none := by
  decide

/-- The step after the last index ends in S_0 with the whole table (R270). -/
theorem step_atIndex_end_of_fits {c : Config} (h : c.QueueInitFits) :
    step (State.atIndex c c.L) = .next (State.powerOn c (genEntries c)) := by
  have hstage : (State.atIndex c c.L).stage = .finish := if_neg (lt_irrefl _)
  have hqueue : queueInitError (State.atIndex c c.L).cfg 0
      ((State.atIndex c c.L).cfg.qmemInit.take (State.atIndex c c.L).cfg.K) = none :=
    queueInitError_of_fits h 0
  rw [step, advance, hstage]
  simp only [finishStep, hqueue, wireCycle_wireReads, genEntries_eq_genTable]
  rfl

/-- Or it refuses the first listed power-on value outside T bits. -/
theorem step_atIndex_end_of_first {c : Config} {i : Nat} {v : Int} (hi : i < c.K)
    (hv : c.qmemInit[i]? = some v) (hbad : fitsSigned c.T v = false)
    (hbefore : ∀ j u, j < i → c.qmemInit[j]? = some u → fitsSigned c.T u = true) :
    step (State.atIndex c c.L) = .refused (.ce4BadConfig (.queueInit i v)) := by
  have hstage : (State.atIndex c c.L).stage = .finish := if_neg (lt_irrefl _)
  have hqueue : queueInitError (State.atIndex c c.L).cfg 0
      ((State.atIndex c c.L).cfg.qmemInit.take (State.atIndex c c.L).cfg.K) =
        some (.ce4BadConfig (.queueInit i v)) := by
    rw [← Nat.zero_add i]
    refine queueInitError_of_first ?_ hbad (fun j u hj hu => hbefore j u hj ?_) 0
    · exact (List.getElem?_take_of_lt hi).trans hv
    · exact (List.getElem?_take_of_lt (hj.trans hi)).symm.trans hu
  rw [step, advance, hstage]
  simp only [finishStep, hqueue]

/-! ### The whole construction -/

/-- Every sample fits when there is no bias, or when every entry of the table is known to fit (R122). -/
theorem fitsSigned_genEntryAt {c : Config}
    (h : c.quantBias = 0 ∨ ∀ e ∈ genEntries c, fitsSigned c.N e.2 = true) {t : Nat} (ht : t < c.L) :
    fitsSigned c.N (genEntryAt c t).2 = true := by
  rcases h with hbias | hall
  · exact fitsSigned_genSample hbias t _
  · exact hall _ (List.mem_of_getElem? (getElem?_genEntries ht))

/-- The indices below t pass when their symbols and entries do. -/
theorem indexPasses_of_getElem? {c : Config} {t u : Nat} (ht : t ≤ c.L) (hu : u < t)
    (hsym : genSym c u < c.B)
    (hfit : ∀ u e, u < t → (genEntries c)[u]? = some e → fitsSigned c.N e.2 = true) :
    IndexPasses c u :=
  ⟨hsym, hfit u _ hu (getElem?_genEntries (hu.trans_le ht))⟩

/-- Settles O49: construction reaches the first index that fails, or else the end of the table; the next
one or two steps decide. -/
theorem constructionRunsTheGenerator : Obligations.ConstructionRunsTheGenerator := by
  unfold Obligations.ConstructionRunsTheGenerator
  intro c bs h hs
  refine ⟨fun hsym hfit => ?table, fun t ht hbad hsym hfit => ?symbol,
    fun t b q he hbad hsym hfit => ?sample⟩
  case table =>
    have hend := stepsFrom_atIndex h hs le_rfl fun u hu => ⟨hsym u hu, fitsSigned_genEntryAt hfit hu⟩
    refine ⟨fun hqueue => ?_, fun i v hi hv hbad hbefore => ?_⟩
    · rw [stepsFrom_add (2 * c.L + 2) 1, hend, andThen_next, stepsFrom_one,
        step_atIndex_end_of_fits hqueue]
    · rw [stepsFrom_add (2 * c.L + 2) 1, hend, andThen_next, stepsFrom_one,
        step_atIndex_end_of_first hi hv hbad hbefore]
  case symbol =>
    have hreach := stepsFrom_atIndex h hs ht.le fun u hu =>
      indexPasses_of_getElem? ht.le hu (hsym u hu) hfit
    rw [stepsFrom_add (2 * t + 2) 1, hreach, andThen_next, stepsFrom_one,
      step_atIndex_of_no_symbol ht h.inRange.symbols hbad]
  case sample =>
    obtain ⟨ht, hentry⟩ := lt_of_getElem?_genEntries he
    have hreach := stepsFrom_atIndex h hs ht.le fun u hu =>
      indexPasses_of_getElem? ht.le hu (hsym u hu.le) hfit
    have hq : (genEntryAt c t).2 = q := by rw [hentry]
    rw [stepsFrom_add (2 * t + 2) 2, hreach, andThen_next, stepsFrom_succ,
      step_atIndex_of_symbol ht (length_bits_of_legal h hs) (hsym t le_rfl), andThen_next, stepsFrom_one,
      step_atEmit_of_not_fits (by rw [hq]; exact hbad), hq]

end Machine

end Sys2Proof
end

section
/-!
PROOFS. The Responder (41_responder.md): its line, its operations row by row, and its tick, in which the FSM
and the counter write disjoint registers (R130 to R136, R140 to R144).
-/

namespace Sys2Proof.Machine

/-! ### The data line (R136) -/

/-- Up to WAIT2 the line is high (R130, R131, R132). -/
theorem din_of_le_wait2 {s : State} (h : s.adc.rspState ≤ wait2Code) : s.din = true :=
  if_pos h

theorem din_of_nullbit {s : State} (h : s.adc.rspState = nullbitCode) : s.din = false := by
  rw [State.din, dout, h]
  rfl

/-- Settles O17: the line of the lead-in states, of NULLBIT and of the bit states. -/
theorem dataLineByState : Obligations.DataLineByState := by
  unfold Obligations.DataLineByState
  intro s _
  refine ⟨fun h => din_of_le_wait2 ?_, din_of_nullbit, fun _ => din_of_bit⟩
  rcases h with h | h | h <;> rw [h] <;> decide

/-! ### The operations (R130 to R135, R140 to R142) -/

/-- RSP.BIT(i) of a bit the width has (R134). -/
theorem rspBitOp_of_bit {s : State} {i : Nat} (hpos : 1 ≤ i) (hi : i < s.cfg.N) :
    rspBitOp i s = .next (s.setAdcNext { s.adcNext with rspState := s.cfg.N + 4 - i }) := by
  have hcode : bitCode s.cfg (i - 1) = s.cfg.N + 4 - i := by
    unfold bitCode
    omega
  rw [rspBitOp, if_pos ⟨hpos, hi⟩, rspGoto, hcode]

/-- RSP.BIT(i) of a bit that has no row (R106; log entry 24). -/
theorem rspBitOp_of_no_bit {s : State} {i : Nat} (h : i = 0 ∨ s.cfg.N ≤ i) :
    rspBitOp i s = .refused (.noSuchBit i) :=
  if_neg (by omega)

theorem execRspWait1_of_entry {s : State} {b : Bool} {q : Int}
    (h : tableRead s.gtab s.adc.rspIdx = some (b, q)) :
    execRspWait1 s = .next (s.setAdcNext { s.adcNext with
      rspHoldBit := b, rspHoldSample := heldPattern s.cfg q, rspState := wait2Code }) := by
  rw [execRspWait1, h]

theorem execRspWait1_of_no_entry {s : State} (h : tableRead s.gtab s.adc.rspIdx = none) :
    execRspWait1 s = .fault (.mf1OutOfTable s.adc.rspIdx s.tick) := by
  rw [execRspWait1, h]

theorem execRspAbort_of_option {s : State} (h : s.cfg.rspAbort = true) :
    execRspAbort s = .next (s.setAdcNext { s.adcNext with rspState := idleCode }) :=
  if_pos h

theorem execRspAbort_of_no_option {s : State} (h : s.cfg.rspAbort = false) :
    execRspAbort s = .refused .abortAbsent :=
  if_neg (by simp [h])

/-- Settles O18: each row's own arm; the bit rows through the one operation they share. -/
theorem responderFsmOperationsComplete : Obligations.ResponderFsmOperationsComplete := by
  unfold Obligations.ResponderFsmOperationsComplete
  intro s
  refine ⟨rfl, rfl, fun b q => execRspWait1_of_entry, fun h => ?past, rfl, rfl, fun p hp => ?rows,
    fun i => rspBitOp_of_bit, fun i => rspBitOp_of_no_bit, rfl, execRspAbort_of_option,
    execRspAbort_of_no_option⟩
  case past => exact execRspWait1_of_no_entry (List.getElem?_eq_none h)
  case rows =>
    obtain ⟨hpos, hrow⟩ : 1 ≤ p.2 ∧ p.1 = rspBitInstr p.2 := by
      revert p
      decide
    rw [hrow, exec_rspBitInstr hpos]
    exact ⟨rspBitOp_of_bit hpos, fun h => rspBitOp_of_no_bit (.inr h)⟩

/-- Settles O23: the two rows' arms. -/
theorem responderCounterOperationsComplete : Obligations.ResponderCounterOperationsComplete := by
  unfold Obligations.ResponderCounterOperationsComplete
  exact fun _ => ⟨rfl, rfl⟩

/-! ### What the FSM reads of the device select (R142, R144) -/

/-- The state with another device select, nothing else changed. -/
def State.withCs (s : State) (b : Bool) : State :=
  { s with sys := { s.sys with decCs := b } }

/-- The outcome with another device select in the state it goes on to. -/
def withCsAfter (b : Bool) (o : Result) : Result :=
  andThen o fun t => .next (t.withCs b)

theorem rspBitOp_withCs (i : Nat) (s : State) (b : Bool) :
    rspBitOp i (s.withCs b) = withCsAfter b (rspBitOp i s) := by
  by_cases hi : i = 0 ∨ s.cfg.N ≤ i
  · rw [rspBitOp_of_no_bit (s := s.withCs b) hi, rspBitOp_of_no_bit hi]
    rfl
  · have hpos : 1 ≤ i := by omega
    have hlt : i < s.cfg.N := by omega
    rw [rspBitOp_of_bit (s := s.withCs b) hpos hlt, rspBitOp_of_bit hpos hlt]
    rfl

theorem execRspWait1_withCs (s : State) (b : Bool) :
    execRspWait1 (s.withCs b) = withCsAfter b (execRspWait1 s) := by
  cases he : tableRead s.gtab s.adc.rspIdx with
  | none => rw [execRspWait1_of_no_entry (s := s.withCs b) he, execRspWait1_of_no_entry he]; rfl
  | some e => rw [execRspWait1_of_entry (s := s.withCs b) he, execRspWait1_of_entry he]; rfl

theorem execRspAbort_withCs (s : State) (b : Bool) :
    execRspAbort (s.withCs b) = withCsAfter b (execRspAbort s) := by
  cases ho : s.cfg.rspAbort with
  | true => rw [execRspAbort_of_option (s := s.withCs b) ho, execRspAbort_of_option ho]; rfl
  | false => rw [execRspAbort_of_no_option (s := s.withCs b) ho, execRspAbort_of_no_option ho]; rfl

/-- No operation of the Responder FSM reads the device select; only its selection does (R92). -/
theorem exec_withCs {i : Instr} (hf : i.format = .rsel) (s : State) (b : Bool) :
    exec i (s.withCs b) = withCsAfter b (exec i s) := by
  cases i with
  | rspIdleHold | rspIdleGo | rspWait2 | rspNullbit | rspBit0 | unusedRsel14 | unusedRsel15 => rfl
  | rspWait1 => exact execRspWait1_withCs s b
  | rspBit9 => exact rspBitOp_withCs 9 s b
  | rspBit8 => exact rspBitOp_withCs 8 s b
  | rspBit7 => exact rspBitOp_withCs 7 s b
  | rspBit6 => exact rspBitOp_withCs 6 s b
  | rspBit5 => exact rspBitOp_withCs 5 s b
  | rspBit4 => exact rspBitOp_withCs 4 s b
  | rspBit3 => exact rspBitOp_withCs 3 s b
  | rspBit2 => exact rspBitOp_withCs 2 s b
  | rspBit1 => exact rspBitOp_withCs 1 s b
  | rspBitN k => exact rspBitOp_withCs k s b
  | rspAbort => exact execRspAbort_withCs s b
  | _ => cases hf

theorem rejected_withCs (e : DecodeError) (b : Bool) : withCsAfter b (rejected e) = rejected e := by
  cases e <;> rfl

/-- Without the option the selection reads cs in IDLE only (R92, R144). -/
theorem decodeRspState_of_no_option {c : Config} {code : Nat} (ho : c.rspAbort = false)
    (h0 : code ≠ idleCode) (cs cs' : Bool) :
    decodeRspState c cs code = decodeRspState c cs' code := by
  by_cases hc : code ≤ c.N + 3
  · rw [decodeRspState_of_not_abort (by simp [ho]) h0 hc,
      decodeRspState_of_not_abort (by simp [ho]) h0 hc]
  · rw [decodeRspState_of_unused (by omega), decodeRspState_of_unused (by omega)]

/-- A state code that selects no operation (R104). -/
theorem perform_rsel_of_error {s : State} {e : DecodeError} (hr : s.rst = false)
    (hw : s.adc.rspState < 2 ^ s.cfg.SW)
    (h : decodeRspState s.cfg s.cs s.adc.rspState = .error e) : perform .rsel s = rejected e := by
  simp [perform_rsel, hr, Nat.mod_eq_of_lt hw, h]

/-- Without the option and outside IDLE another device select changes nothing in what the FSM performs
(R144). -/
theorem perform_rsel_withCs {s : State} (ho : s.cfg.rspAbort = false) (h0 : s.adc.rspState ≠ idleCode)
    (hlt : s.adc.rspState < 2 ^ s.cfg.SW) (b : Bool) :
    perform .rsel (s.withCs b) = withCsAfter b (perform .rsel s) := by
  cases hr : s.rst with
  | true =>
    rw [perform_of_rst (s := s.withCs b) (by decide) hr, perform_of_rst (by decide) hr]
    rfl
  | false =>
    have hcode := decodeRspState_of_no_option ho h0 b s.cs
    cases hi : decodeRspState s.cfg s.cs s.adc.rspState with
    | ok i =>
      rw [perform_rsel_of_code (s := s.withCs b) hr hlt (hcode.trans hi),
        perform_rsel_of_code hr hlt hi]
      exact exec_withCs (decodeRspState_isRsp hi).2 s b
    | error e =>
      rw [perform_rsel_of_error (s := s.withCs b) hr hlt (hcode.trans hi),
        perform_rsel_of_error hr hlt hi, rejected_withCs]

/-- Settles O6: with another device select the operation gives the same outcome, up to that select. -/
theorem deviceSelectReadOnlyInIdle : Obligations.DeviceSelectReadOnlyInIdle := by
  unfold Obligations.DeviceSelectReadOnlyInIdle
  intro s b ho h0 hlt
  have hsame : perform .rsel { s with sys := { s.sys with decCs := b } } = _ :=
    perform_rsel_withCs ho h0 hlt b
  refine ⟨fun t h => ⟨t.withCs b, ?_, rfl⟩, fun r h => ?_⟩ <;> rw [hsame, h] <;> rfl

theorem rspBitInstr_ne_abort (i : Nat) : rspBitInstr i ≠ .rspAbort := by
  unfold rspBitInstr
  split <;> nofun

/-- Without the option no state code selects RSP.ABORT (R92, R142). -/
theorem decodeRspState_ne_abort {c : Config} (ho : c.rspAbort = false) (cs : Bool) (code : Nat) :
    decodeRspState c cs code ≠ .ok .rspAbort := by
  by_cases h0 : code = idleCode
  · rw [decodeRspState, if_pos h0]
    cases cs <;> nofun
  by_cases hc : code ≤ c.N + 3
  · rw [decodeRspState_of_not_abort (by simp [ho]) h0 hc]
    split_ifs <;> simp [rspBitInstr_ne_abort]
  · rw [decodeRspState_of_unused (by omega)]
    split_ifs <;> nofun

/-- Without the option no RSEL word is RSP.ABORT's (R92, R142). -/
theorem decode_rsel_ne_abort {c : Config} (ho : c.rspAbort = false) (w : Nat) :
    decode c .rsel w ≠ .ok .rspAbort := by
  intro h
  simp only [decode] at h
  split_ifs at h
  · cases h
  · exact decodeRspState_ne_abort ho _ _ h

/-! ### The writes of a tick (R130 to R135, R140 to R142) -/

/-- The counter's writes leave the FSM's registers alone (R13). -/
theorem sameRspFsm_countUpd (s : State) (r : AdcRegs) : SameRspFsm r (countUpd s r) := by
  unfold countUpd
  split_ifs <;> exact ⟨rfl, rfl, rfl⟩

/-- The FSM's writes leave the counter's registers alone (R13). -/
theorem sameRspCount_rspUpd (s : State) (e : Bool × Int) (r : AdcRegs) :
    SameRspCount r (rspUpd s e r) := by
  unfold rspUpd
  split_ifs <;> exact ⟨rfl, rfl⟩

/-- What the counter writes is the same over registers whose count and index are alike. -/
theorem sameRspCount_countUpd {r q : AdcRegs} (h : SameRspCount r q) (s : State) :
    SameRspCount (countUpd s r) (countUpd s q) := by
  obtain ⟨-, hidx⟩ := h
  unfold countUpd
  split_ifs
  · exact ⟨rfl, rfl⟩
  · exact ⟨rfl, hidx⟩

/-- Only the load writes the holding register (R131). -/
theorem hold_rspUpd_of_not_loads {s : State} (h : ¬ s.loads) (e : Bool × Int) (r : AdcRegs) :
    (rspUpd s e r).rspHoldSample = r.rspHoldSample ∧ (rspUpd s e r).rspHoldBit = r.rspHoldBit := by
  unfold rspUpd
  split_ifs with h0 hcs ha h1
  on_goal 4 => exact absurd ⟨h1, by simpa using ha⟩ h
  all_goals exact ⟨rfl, rfl⟩

theorem rspUpd_idle {s : State} (hc : s.adc.rspState = idleCode) (e : Bool × Int) (r : AdcRegs) :
    rspUpd s e r = if s.cs then r else { r with rspState := wait1Code } :=
  if_pos hc

theorem rspUpd_of_abort {s : State} (ha : (s.cfg.rspAbort && s.cs) = true)
    (h0 : s.adc.rspState ≠ idleCode) (e : Bool × Int) (r : AdcRegs) :
    rspUpd s e r = { r with rspState := idleCode } := by
  rw [rspUpd, if_neg h0, if_pos ha]

section NoAbort

variable {s : State} (ha : (s.cfg.rspAbort && s.cs) = false)
include ha

/-- Without an abort every state but IDLE makes its own writes (R131 to R135). -/
theorem rspUpd_of_not_abort (h0 : s.adc.rspState ≠ idleCode) (e : Bool × Int) (r : AdcRegs) :
    rspUpd s e r =
      if s.adc.rspState = wait1Code then
        { r with rspHoldBit := e.1, rspHoldSample := heldPattern s.cfg e.2, rspState := wait2Code }
      else if s.adc.rspState = wait2Code then { r with rspState := nullbitCode }
      else if s.adc.rspState = nullbitCode then { r with rspState := bitCode s.cfg (s.cfg.N - 1) }
      else if s.adc.rspState = s.cfg.N + 3 then { r with rspState := idleCode }
      else { r with rspState := bitCode s.cfg (s.cfg.N + 3 - s.adc.rspState - 1) } := by
  rw [rspUpd, if_neg h0, if_neg (by simp [ha])]

theorem rspUpd_wait1 (hc : s.adc.rspState = wait1Code) (e : Bool × Int) (r : AdcRegs) :
    rspUpd s e r =
      { r with rspHoldBit := e.1, rspHoldSample := heldPattern s.cfg e.2, rspState := wait2Code } := by
  rw [rspUpd_of_not_abort ha (by rw [hc]; decide), if_pos hc]

theorem rspUpd_wait2 (hc : s.adc.rspState = wait2Code) (e : Bool × Int) (r : AdcRegs) :
    rspUpd s e r = { r with rspState := nullbitCode } := by
  rw [rspUpd_of_not_abort ha (by rw [hc]; decide), hc]
  rfl

theorem rspUpd_nullbit (hc : s.adc.rspState = nullbitCode) (e : Bool × Int) (r : AdcRegs) :
    rspUpd s e r = { r with rspState := bitCode s.cfg (s.cfg.N - 1) } := by
  rw [rspUpd_of_not_abort ha (by rw [hc]; decide), hc]
  rfl

/-- BIT(i), i ≥ 1 (R134). -/
theorem rspUpd_bit {i : Nat} (hpos : 1 ≤ i) (hi : i < s.cfg.N) (hc : s.adc.rspState = bitCode s.cfg i)
    (e : Bool × Int) (r : AdcRegs) :
    rspUpd s e r = { r with rspState := bitCode s.cfg (i - 1) } := by
  have h4 := four_le_bitCode hi
  have hne : bitCode s.cfg i ≠ s.cfg.N + 3 := by unfold bitCode; omega
  rw [rspUpd_of_not_abort ha, hc, if_neg, if_neg, if_neg, if_neg hne, sub_bitCode hi]
  all_goals simp only [hc, idleCode, wait1Code, wait2Code, nullbitCode]; omega

/-- BIT(0) (R135). -/
theorem rspUpd_bit0 (hN : 1 ≤ s.cfg.N) (hc : s.adc.rspState = bitCode s.cfg 0) (e : Bool × Int)
    (r : AdcRegs) : rspUpd s e r = { r with rspState := idleCode } := by
  have h4 := four_le_bitCode (c := s.cfg) hN
  rw [rspUpd_of_not_abort ha, if_neg, if_neg, if_neg]
  · exact if_pos hc
  all_goals simp only [hc, idleCode, wait1Code, wait2Code, nullbitCode]; omega

end NoAbort

/-- Below its limit the counter counts, within its width (R10, R140). -/
theorem countUpd_of_lt {s : State} (h : s.adc.rspCnt < s.cfg.C) (r : AdcRegs) :
    countUpd s r = { r with rspCnt := s.adc.rspCnt + 1 } := by
  have hatC : ¬ s.atC = true := by simp [State.atC, h.ne]
  have hwidth : s.cfg.C + 1 ≤ 2 ^ s.cfg.RW :=
    (le_two_pow_clog2 _).trans (Nat.pow_le_pow_right (by norm_num) (le_max_right _ _))
  rw [countUpd, if_neg hatC, cut_of_lt (by omega)]

theorem countUpd_of_eq {s : State} (h : s.adc.rspCnt = s.cfg.C) (r : AdcRegs) :
    countUpd s r = { r with rspCnt := 0, rspIdx := (s.adc.rspIdx + 1) % 2 ^ s.cfg.IW } := by
  have hatC : s.atC = true := by simp [State.atC, h]
  rw [countUpd, if_pos hatC]
  rfl

/-! ### The tick (R130 to R135, R140 to R142) -/

@[simp] theorem midTick_cfg (s : State) : (midTick s).cfg = s.cfg := rfl

/-- The Responder after a tick without reset: the FSM's registers are what the FSM writes, the count and
the index what the counter writes, and the cs they read is the one the tick leaves (R130, R230). -/
theorem step_next_responder {s t : State} (hw : s.Wf) (hr : s.nextRst = false) (h : step s = .next t) :
    ∃ e, SameRspFsm (rspUpd (midTick s) e s.adc) t.adc ∧
      SameRspCount (countUpd (midTick s) s.adc) t.adc ∧ (midTick s).cs = t.sys.decCs := by
  obtain ⟨-, hrun, -⟩ := id hw
  rw [step_run hrun] at h
  obtain ⟨-, hsys, e, hadc⟩ := tick_next_regs hw hr h
  refine ⟨e, ?_, ?_, ?_⟩
  · rw [hadc]
    exact sameRspFsm_countUpd _ _
  · rw [hadc]
    exact sameRspCount_countUpd (sameRspCount_rspUpd _ _ _) _
  · rw [hsys]
    rfl

/-- Settles O24: the counter's writes below its limit and at it. -/
theorem responderCounterTick : Obligations.ResponderCounterTick := by
  unfold Obligations.ResponderCounterTick
  intro s t hw hr h
  obtain ⟨-, -, -, -, ⟨-, hle, -⟩, -⟩ := id hw
  obtain ⟨-, -, ⟨hcnt, hidx⟩, -⟩ := step_next_responder hw hr h
  refine ⟨fun hne => ?_, fun heq => ?_⟩
  · rw [hcnt, hidx, countUpd_of_lt (s := midTick s) (Nat.lt_of_le_of_ne hle hne)]
    exact ⟨rfl, rfl⟩
  · rw [hcnt, hidx, countUpd_of_eq (s := midTick s) heq]
    exact ⟨rfl, rfl⟩

/-- Settles O19: the FSM's writes in IDLE, by the cs the tick leaves. -/
theorem responderIdleTick : Obligations.ResponderIdleTick := by
  unfold Obligations.ResponderIdleTick
  intro s t hw hr hc h
  obtain ⟨e, ⟨hstate, hsample, hbit⟩, -, hcs⟩ := step_next_responder hw hr h
  have hkeep : ¬ (midTick s).loads := fun ⟨h1, _⟩ => absurd (hc.symm.trans h1) (by decide)
  obtain ⟨hsample', hbit'⟩ := hold_rspUpd_of_not_loads hkeep e s.adc
  rw [rspUpd_idle (s := midTick s) hc, hcs] at hstate
  exact ⟨din_of_le_wait2 (by rw [hc]; decide), fun ht => by rw [hstate, if_pos ht, hc],
    fun ht => by rw [hstate, if_neg (by simp [ht])], hsample.trans hsample', hbit.trans hbit'⟩

/-- Settles O21: without an abort each state's own writes; the load is WAIT1's. -/
theorem responderSerialTick : Obligations.ResponderSerialTick := by
  unfold Obligations.ResponderSerialTick
  intro s t hw hr h hoff
  obtain ⟨hlegal, -⟩ := id hw
  have hN : 1 ≤ s.cfg.N := Nat.one_le_of_lt hlegal.inRange.sampleWidth
  obtain ⟨e, ⟨hstate, hsample, hbit⟩, -, hcs⟩ := step_next_responder hw hr h
  have ha : ((midTick s).cfg.rspAbort && (midTick s).cs) = false := by
    rcases hoff with ho | ho <;> simp [hcs, ho]
  refine ⟨fun hc => ⟨?wait2, din_of_le_wait2 hc.le⟩, fun hc => ⟨?nullbit, din_of_nullbit hc⟩,
    fun i hpos hi hc => ⟨?bit, din_of_bit hi hc⟩, fun hc => ⟨?bit0, din_of_bit hN hc⟩, fun hle => ?hold⟩
  case wait2 => rw [hstate, rspUpd_wait2 ha hc]
  case nullbit => rw [hstate, rspUpd_nullbit ha hc]; rfl
  case bit => rw [hstate, rspUpd_bit ha hpos hi hc]; rfl
  case bit0 => rw [hstate, rspUpd_bit0 ha hN hc]
  case hold =>
    have hkeep : ¬ (midTick s).loads := fun ⟨h1, _⟩ => absurd (hle.trans_eq h1) (by decide)
    obtain ⟨hsample', hbit'⟩ := hold_rspUpd_of_not_loads hkeep e s.adc
    exact ⟨hsample.trans hsample', hbit.trans hbit'⟩

/-- Settles O22: the abort's writes with the counter's, and the words without the option. -/
theorem responderAbortTick : Obligations.ResponderAbortTick := by
  unfold Obligations.ResponderAbortTick
  refine ⟨fun s t hw hr h ho hcs h0 => ?_, fun c w ho => decode_rsel_ne_abort ho w⟩
  obtain ⟨e, ⟨hstate, hsample, hbit⟩, -, hmid⟩ := step_next_responder hw hr h
  have ha : ((midTick s).cfg.rspAbort && (midTick s).cs) = true := by
    simp [hmid, hcs, ho]
  rw [rspUpd_of_abort ha h0] at hstate hsample hbit
  exact ⟨hstate, hsample, hbit, responderCounterTick s t hw hr h⟩

/-- A selected device stays selected over a tick in which the Decoder does not finish a transfer (R160 to
R165). -/
theorem cs_midTick_of_selected {s : State} (hcs : s.sys.decCs = false)
    (hc : s.sys.decState ≠ bitCode s.cfg 0) : (midTick s).cs = false := by
  obtain ⟨-, hsame, -⟩ := sameDec_sysUpd s.beginTick s.sys
  have hdec : (decUpd s.beginTick s.sys).decCs = false := by
    unfold decUpd
    split_ifs with h0 h1 h2 h3 h4
    on_goal 5 => exact absurd h4 hc
    · rfl
    all_goals exact hcs
  exact hsame.trans hdec

/-- Settles O20: without an abort WAIT1 loads; the table's length tells whether it has the entry. -/
theorem responderLoadTick : Obligations.ResponderLoadTick := by
  unfold Obligations.ResponderLoadTick
  intro s hw hr hc hoff
  obtain ⟨hlegal, hrun, ⟨hlen, -⟩, ⟨hdec, -⟩, ⟨hrsp, -⟩, -⟩ := id hw
  have hN : 1 ≤ s.cfg.N := Nat.one_le_of_lt hlegal.inRange.sampleWidth
  have ha : (s.cfg.rspAbort && (midTick s).cs) = false := by
    rcases hoff with ho | ⟨hcs, hne⟩
    · simp [ho]
    · simp [cs_midTick_of_selected hcs hne]
  have hloads : (midTick s).loads := ⟨hc, ha⟩
  refine ⟨fun hidx => ?past, fun b q he => ?entry, din_of_le_wait2 (by rw [hc]; decide)⟩
  case past =>
    rw [step_run hrun]
    exact tick_mf1 hr hN hdec hw.qWr_lt hloads (List.getElem?_eq_none (hlen.trans_le hidx))
  case entry =>
    obtain ⟨hstate, hsample, hbit⟩ :=
      sameRspFsm_countUpd (midTick s) (rspUpd (midTick s) (b, q) s.adc)
    rw [rspUpd_wait1 (s := midTick s) ha hc] at hstate hsample hbit
    refine ⟨_, (step_run hrun).trans (tick_upd hr hdec hw.qWr_lt hrsp fun _ => he), ?_⟩
    rw [commitAdc_adc, setAdcNext_adcNext, rspUpd_wait1 (s := midTick s) ha hc]
    refine ⟨hbit, hstate, ?_⟩
    rw [hsample]
    exact_mod_cast natCast_pat s.cfg.N q

end Sys2Proof.Machine
end

section
/-!
PROOFS. The Decoder (42_decoder.md): its operations row by row, its tick (R160 to R165), and its lock-step
with the Responder, in which both FSMs go round the same cycle of state codes (R166, R167, R169).
-/

namespace Sys2Proof.Machine

/-! ### The operations (R160 to R165) -/

/-- Settles O10: the five rows' arms. -/
theorem decoderLeadInAndBit0Complete : Obligations.DecoderLeadInAndBit0Complete := by
  unfold Obligations.DecoderLeadInAndBit0Complete
  exact fun _ => ⟨rfl, rfl, rfl, rfl, rfl⟩

/-- DEC.BIT(i) of a bit the width has (R164). -/
theorem decBitOp_of_bit {s : State} {i : Nat} (hpos : 1 ≤ i) (hi : i < s.cfg.N) :
    decBitOp i s =
      .next (s.setSysNext
        { s.sysNext with decSample := captured s i, decState := s.cfg.N + 4 - i }) := by
  have hcode : bitCode s.cfg (i - 1) = s.cfg.N + 4 - i := by
    unfold bitCode
    omega
  rw [decBitOp, if_pos ⟨hpos, hi⟩, hcode]

/-- DEC.BIT(i) of a bit that has no row (R106; log entry 24). -/
theorem decBitOp_of_no_bit {s : State} {i : Nat} (h : i = 0 ∨ s.cfg.N ≤ i) :
    decBitOp i s = .refused (.noSuchBit i) :=
  if_neg (by omega)

/-- Settles O11: every bit row is the one operation they share. -/
theorem decoderBitStatesComplete : Obligations.DecoderBitStatesComplete := by
  unfold Obligations.DecoderBitStatesComplete
  refine fun s => ⟨fun p hp => ?rows, fun i => decBitOp_of_bit, fun i => decBitOp_of_no_bit⟩
  obtain ⟨hpos, hrow⟩ : 1 ≤ p.2 ∧ p.1 = decBitInstr p.2 := by
    revert p
    decide
  rw [hrow, exec_decBitInstr hpos]
  exact ⟨decBitOp_of_bit hpos, fun h => decBitOp_of_no_bit (.inr h)⟩

/-! ### The writes of a tick (R160 to R165) -/

/-- NULLBIT is followed by the code of the first bit sent (R91, R163). -/
theorem bitCode_first {c : Config} (hN : 1 ≤ c.N) : bitCode c (c.N - 1) = nullbitCode + 1 := by
  unfold bitCode nullbitCode
  omega

/-- BIT(i) is followed by the code of BIT(i-1) (R91, R164). -/
theorem bitCode_pred {c : Config} {i : Nat} (hpos : 1 ≤ i) (hi : i < c.N) :
    bitCode c (i - 1) = bitCode c i + 1 := by
  unfold bitCode
  omega

theorem decUpd_idle {s : State} (hc : s.sys.decState = idleCode) (r : SysRegs) :
    decUpd s r = { r with decCs := false, decValid := false, decState := wait1Code } :=
  if_pos hc

/-- WAIT1, WAIT2 and NULLBIT write the next state's code and nothing else (R161 to R163). -/
theorem decUpd_wait {s : State} (hN : 1 ≤ s.cfg.N) (h0 : s.sys.decState ≠ idleCode)
    (h3 : s.sys.decState ≤ nullbitCode) (r : SysRegs) :
    decUpd s r = { r with decState := s.sys.decState + 1 } := by
  obtain hc | hc | hc :
      s.sys.decState = wait1Code ∨ s.sys.decState = wait2Code ∨ s.sys.decState = nullbitCode := by
    simp only [idleCode, wait1Code, wait2Code, nullbitCode] at *
    omega
  · rw [decUpd, hc]; rfl
  · rw [decUpd, hc]; rfl
  · rw [decUpd, hc, bitCode_first hN]; rfl

/-- Between IDLE and BIT(0) the FSM goes to the next code and leaves the select and the pulse (R161 to
R164). -/
theorem decUpd_between {s : State} (hN : 1 ≤ s.cfg.N) (h0 : s.sys.decState ≠ idleCode)
    (hlt : s.sys.decState < bitCode s.cfg 0) (r : SysRegs) :
    (decUpd s r).decState = s.sys.decState + 1 ∧ (decUpd s r).decCs = r.decCs ∧
      (decUpd s r).decValid = r.decValid := by
  rcases leadIn_or_bitCode (c := s.cfg) hlt.le with h3 | ⟨i, hi, hc⟩
  · rw [decUpd_wait hN h0 h3]
    exact ⟨rfl, rfl, rfl⟩
  · have hpos : 1 ≤ i := Nat.pos_of_ne_zero (by rintro rfl; exact hlt.ne hc)
    rw [decUpd_bit hpos hi hc, hc]
    exact ⟨bitCode_pred hpos hi, rfl, rfl⟩

/-- Without an abort the Responder goes to the next code between IDLE and BIT(0), too (R131 to R134). -/
theorem rspUpd_between {s : State} (ha : (s.cfg.rspAbort && s.cs) = false) (hN : 1 ≤ s.cfg.N)
    (h0 : s.adc.rspState ≠ idleCode) (hlt : s.adc.rspState < bitCode s.cfg 0) (e : Bool × Int)
    (r : AdcRegs) : (rspUpd s e r).rspState = s.adc.rspState + 1 := by
  rw [rspUpd_of_not_abort ha h0]
  split_ifs with h1 h2 h3 h4
  · exact congrArg (· + 1) h1.symm
  · exact congrArg (· + 1) h2.symm
  all_goals simp only [bitCode, idleCode, wait1Code, wait2Code, nullbitCode] at *; omega

/-- From BIT(0) the Responder returns to IDLE, with an abort and without (R135, R142). -/
theorem rspUpd_last {s : State} (hN : 1 ≤ s.cfg.N) (hc : s.adc.rspState = bitCode s.cfg 0)
    (e : Bool × Int) (r : AdcRegs) : (rspUpd s e r).rspState = idleCode := by
  cases ha : s.cfg.rspAbort && s.cs with
  | false => rw [rspUpd_bit0 ha hN hc]
  | true =>
    have h0 : s.adc.rspState ≠ idleCode := by
      rw [hc]
      unfold bitCode idleCode
      omega
    rw [rspUpd_of_abort ha h0]

/-! ### Lock-step (R166, R167, R169) -/

/-- The FSMs and the select after the writes of a tick from a state in lock-step: the Responder reads the
select the Decoder has just written, so it leaves IDLE with the Decoder, and an abort can only come with the
Decoder's own return to IDLE. -/
theorem lockstep_of_upd {s t : State} (hN : 1 ≤ s.cfg.N) (hdec : s.sys.decState ≤ s.cfg.N + 3)
    (hlock : s.Lockstep) {e : Bool × Int} (hsys : SameDec (decUpd s s.sys) t.sys)
    (hadc : SameRspFsm (rspUpd (midTick s) e s.adc) t.adc) (hcs : (midTick s).cs = t.sys.decCs) :
    t.Lockstep := by
  obtain ⟨hsame, hsel, hpulse⟩ := hlock
  obtain ⟨hstate, hselect, hvalid, -⟩ := hsys
  obtain ⟨hrsp, -⟩ := hadc
  rw [hselect] at hcs
  unfold State.Lockstep
  rw [hstate, hselect, hvalid, hrsp]
  by_cases h0 : s.sys.decState = idleCode
  · rw [decUpd_idle h0] at hcs ⊢
    rw [rspUpd_idle (s := midTick s) (hsame ▸ h0), hcs]
    simp [wait1Code, idleCode]
  have hcs0 : s.sys.decCs = false := Bool.eq_false_iff.2 (mt hsel.1 h0)
  have hquiet : s.sys.decValid = false := Bool.eq_false_iff.2 (mt hpulse h0)
  rcases Nat.lt_or_eq_of_le hdec with hlt | hlast
  · obtain ⟨hnext, hselect', hvalid'⟩ := decUpd_between hN h0 hlt s.sys
    rw [hselect', hcs0] at hcs
    have ha : ((midTick s).cfg.rspAbort && (midTick s).cs) = false := by simp [hcs]
    rw [rspUpd_between (s := midTick s) ha hN (hsame ▸ h0) (hsame ▸ hlt), hnext, hselect', hvalid', hcs0,
      hquiet]
    exact ⟨congrArg (· + 1) hsame, by simp [idleCode], by simp⟩
  · rw [rspUpd_last (s := midTick s) hN (hsame ▸ hlast), decUpd_bit0 hN hlast]
    simp

/-- The Decoder after a tick without reset: its registers are what it writes (R30, R230). -/
theorem step_next_decoder {s t : State} (hw : s.Wf) (hr : s.nextRst = false) (h : step s = .next t) :
    SameDec (decUpd s s.sys) t.sys := by
  obtain ⟨-, hrun, -⟩ := id hw
  rw [step_run hrun] at h
  obtain ⟨-, hsys, -⟩ := tick_next_regs hw hr h
  rw [hsys]
  exact sameDec_sysUpd s.beginTick s.sys

/-- Settles O55: a reset tick puts both FSMs into IDLE with the device deselected, and any other tick takes
both to the same code. -/
theorem stepKeepsLockstep : Obligations.StepKeepsLockstep := by
  unfold Obligations.StepKeepsLockstep
  intro s t hw hlock h
  obtain ⟨hlegal, hrun, -, ⟨hdec, -⟩, -⟩ := id hw
  have hN : 1 ≤ s.cfg.N := Nat.one_le_of_lt hlegal.inRange.sampleWidth
  cases hr : s.nextRst with
  | true =>
    rw [step_run hrun, tick_reset hr] at h
    cases h
    exact ⟨rfl, ⟨fun _ => rfl, fun _ => rfl⟩, fun _ => rfl⟩
  | false =>
    obtain ⟨e, hadc, -, hcs⟩ := step_next_responder hw hr h
    exact lockstep_of_upd hN hdec hlock (step_next_decoder hw hr h) hadc hcs

/-! ### The tick (R160 to R165) -/

/-- Settles O13: the Decoder's writes in IDLE. -/
theorem decoderIdleTick : Obligations.DecoderIdleTick := by
  unfold Obligations.DecoderIdleTick
  intro s t hw hr hc h
  have hdec := step_next_decoder hw hr h
  rwa [decUpd_idle hc] at hdec

/-- Settles O14: each lead-in state goes to the next code, and nothing else of the Decoder is written. -/
theorem decoderLeadInTick : Obligations.DecoderLeadInTick := by
  unfold Obligations.DecoderLeadInTick
  intro s t hw hr h
  obtain ⟨hlegal, -⟩ := id hw
  have hN : 1 ≤ s.cfg.N := Nat.one_le_of_lt hlegal.inRange.sampleWidth
  have hwrites {code : Nat} (h0 : code ≠ idleCode) (h3 : code ≤ nullbitCode)
      (hc : s.sys.decState = code) : SameDec { s.sys with decState := code + 1 } t.sys := by
    have hdec := step_next_decoder hw hr h
    rwa [decUpd_wait hN (hc ▸ h0) (hc ▸ h3), hc] at hdec
  have hwait1 := hwrites (code := wait1Code) (by decide) (by decide)
  have hwait2 := hwrites (code := wait2Code) (by decide) (by decide)
  have hnull := hwrites (code := nullbitCode) (by decide) (by decide)
  refine ⟨fun hc => (hwait1 hc).1, fun hc => (hwait2 hc).1,
    fun hc => (hnull hc).1.trans (bitCode_first hN).symm, ?frame⟩
  rintro (hc | hc | hc)
  exacts [(hwait1 hc).2, (hwait2 hc).2, (hnull hc).2]

/-- Settles O15: the writes of BIT(i), and the bits of the captured sample. -/
theorem decoderBitTick : Obligations.DecoderBitTick := by
  unfold Obligations.DecoderBitTick
  intro s t i hw hr hpos hi hc h
  have hdec := step_next_decoder hw hr h
  rw [decUpd_bit hpos hi hc] at hdec
  obtain ⟨hstate, hcs, hvalid, hsample⟩ := hdec
  rw [hsample]
  exact ⟨hstate, hcs, hvalid, captureWritesOneBit s i hi⟩

/-- Settles O16: the writes of BIT(0), and the bits of the captured sample. -/
theorem decoderBit0Tick : Obligations.DecoderBit0Tick := by
  unfold Obligations.DecoderBit0Tick
  intro s t hw hr hc h
  obtain ⟨hlegal, -⟩ := id hw
  have hN : 1 ≤ s.cfg.N := Nat.one_le_of_lt hlegal.inRange.sampleWidth
  have hdec := step_next_decoder hw hr h
  rw [decUpd_bit0 hN hc] at hdec
  obtain ⟨hstate, hcs, hvalid, hsample⟩ := hdec
  rw [hsample]
  exact ⟨hstate, hcs, hvalid, captureWritesOneBit s 0 hN⟩

end Sys2Proof.Machine
end

section
/-!
PROOFS. The Accumulator (43_accumulator.md): its operations, its tick by `in_valid` and the boundary value
(R190 to R193), and the sum a group of accepted samples ends in (R195, R197).
-/

namespace Sys2Proof

open Sys2Proof.Machine

/-! ### The boundary value (R190) -/

theorem Config.LIM_of_literal {c : Config} (h : c.accMode = .literal) : c.LIM = c.D := by
  simp only [LIM, h]

theorem Config.LIM_of_corrected {c : Config} (h : c.accMode = .corrected) : c.LIM = c.D - 1 := by
  simp only [LIM, h]

theorem Config.LIM_le (c : Config) : c.LIM ≤ c.D := by
  cases h : c.accMode with
  | literal => exact (LIM_of_literal h).le
  | corrected => exact (LIM_of_corrected h).trans_le (Nat.sub_le _ _)

/-- The counter's width holds the boundary value (R10). -/
theorem Config.LIM_lt_two_pow_CW (c : Config) : c.LIM < 2 ^ c.CW :=
  calc c.LIM < c.D + 1 := Nat.lt_succ_of_le c.LIM_le
    _ ≤ 2 ^ clog2 (c.D + 1) := le_two_pow_clog2 _
    _ ≤ 2 ^ c.CW := Nat.pow_le_pow_right (by norm_num) (le_max_right _ _)

namespace Machine

/-! ### The operations (R191 to R193) -/

/-- Settles O25: the three rows' arms. -/
theorem accumulatorOperationsComplete : Obligations.AccumulatorOperationsComplete := by
  unfold Obligations.AccumulatorOperationsComplete
  exact fun _ => ⟨rfl, rfl, rfl⟩

/-! ### The writes of a tick (R190 to R193) -/

theorem accUpd_hold {s : State} (hv : s.sys.decValid = false) (r : SysRegs) :
    accUpd s r = { r with accValid := false } :=
  if_neg (by simp [hv])

/-- Below the boundary the counter counts, within its width (R10, R191). -/
theorem accUpd_add {s : State} (hv : s.sys.decValid = true) (hlt : s.sys.accCnt < s.cfg.LIM)
    (r : SysRegs) :
    accUpd s r = { r with accSum := accTotal s, accCnt := s.sys.accCnt + 1, accValid := false } := by
  have hl : ¬ s.atLim = true := by simp [State.atLim, hlt.ne]
  rw [accUpd, if_pos hv, if_neg hl, cut_of_lt (Nat.lt_of_le_of_lt hlt s.cfg.LIM_lt_two_pow_CW)]

theorem accUpd_emit {s : State} (hv : s.sys.decValid = true) (heq : s.sys.accCnt = s.cfg.LIM)
    (r : SysRegs) :
    accUpd s r = { r with accOut := accTotal s, accValid := true, accSum := 0, accCnt := 0 } := by
  have hl : s.atLim = true := by simp [State.atLim, heq]
  rw [accUpd, if_pos hv, if_pos hl]

/-- Registers alike for the Accumulator are alike after its writes. -/
theorem sameAcc_accUpd {r q : SysRegs} (h : SameAcc r q) (s : State) :
    SameAcc (accUpd s r) (accUpd s q) := by
  obtain ⟨hcnt, hsum, hout, -⟩ := h
  unfold accUpd
  split_ifs
  exacts [⟨rfl, rfl, rfl, rfl⟩, ⟨rfl, rfl, hout, rfl⟩, ⟨hcnt, hsum, hout, rfl⟩]

/-- The other components of the `sys` domain leave the Accumulator's registers alone (R30). -/
theorem sameAcc_sysUpd (s : State) (r : SysRegs) : SameAcc (accUpd s r) (sysUpd s r) := by
  have hdec : SameAcc r (decUpd s r) := by
    unfold decUpd
    split_ifs <;> exact ⟨rfl, rfl, rfl, rfl⟩
  have hacc := sameAcc_accUpd hdec s
  have hqueue : SameAcc (accUpd s r) (queueUpd s (accUpd s (decUpd s r))) := by
    unfold queueUpd
    split_ifs <;> exact hacc
  unfold sysUpd cursorUpd
  split_ifs <;> exact hqueue

/-- The Accumulator after a tick without reset: its registers are what it writes (R230). -/
theorem step_next_accumulator {s t : State} (hw : s.Wf) (hr : s.nextRst = false) (h : step s = .next t) :
    SameAcc (accUpd s s.sys) t.sys := by
  obtain ⟨-, hrun, -⟩ := id hw
  rw [step_run hrun] at h
  obtain ⟨-, hsys, -⟩ := tick_next_regs hw hr h
  rw [hsys]
  exact sameAcc_sysUpd s.beginTick s.sys

/-- Settles O26: the Accumulator's writes without a pulse, at the boundary and below it. -/
theorem accumulatorTick : Obligations.AccumulatorTick := by
  unfold Obligations.AccumulatorTick
  intro s t hw hr h
  obtain ⟨-, -, -, ⟨-, -, hle, -⟩, -⟩ := id hw
  have hacc := step_next_accumulator hw hr h
  refine ⟨Config.LIM_of_literal, Config.LIM_of_corrected, fun hv => ?hold, fun hv heq => ?emit,
    fun hv hne => ?add⟩
  case hold =>
    rw [accUpd_hold hv] at hacc
    obtain ⟨hcnt, hsum, hout, hvalid⟩ := hacc
    exact ⟨hvalid, hcnt, hsum, hout⟩
  case emit =>
    rw [accUpd_emit hv heq] at hacc
    obtain ⟨hcnt, hsum, hout, hvalid⟩ := hacc
    exact ⟨hout, hvalid, hsum, hcnt⟩
  case add =>
    rw [accUpd_add hv (Nat.lt_of_le_of_ne hle hne)] at hacc
    obtain ⟨hcnt, hsum, hout, hvalid⟩ := hacc
    exact ⟨hsum, hcnt, hvalid, hout⟩

/-! ### A group of accepted samples (R195, R197) -/

/-- Wrapping a partial sum does not change the wrapped sum (R101). -/
theorem wrap_add_wrap (w : Nat) (x y : Int) : wrap w (wrap w x + y) = wrap w (x + y) :=
  Int.bmod_add_bmod

/-- The state in which the Accumulator is offered the sample x: no reset, `in_valid` = 1, `in_data` = x. -/
def State.offered (s : State) (x : Int) : State :=
  { s with rst := false, sys := { s.sys with decValid := true, decSample := x } }

/-- Accepting a sample is the Accumulator's own writes, committed. -/
theorem acceptSample_eq (s : State) (x : Int) :
    acceptSample s x =
      .next ((s.offered x).setSysNext (accUpd (s.offered x) (s.offered x).sys)).commitSys := by
  have hperform := perform_asel_upd (s := s.offered x) rfl (s.offered x).sys
  show andThen (perform .asel ((s.offered x).setSysNext (s.offered x).sys)) _ = _
  rw [hperform, andThen_next]

/-- A sample below the boundary goes into the sum (R191). -/
theorem acceptSample_add {s : State} (hlt : s.sys.accCnt < s.cfg.LIM) (x : Int) :
    ∃ t, acceptSample s x = .next t ∧ t.cfg = s.cfg ∧ t.sys.accCnt = s.sys.accCnt + 1 ∧
      t.sys.accSum = wrap s.cfg.W (s.sys.accSum + x) := by
  refine ⟨_, acceptSample_eq s x, ?_⟩
  rw [accUpd_add (s := s.offered x) rfl hlt]
  exact ⟨rfl, rfl, rfl⟩

/-- The sample at the boundary is emitted with the sum, and the Accumulator is cleared (R192). -/
theorem acceptSample_emit {s : State} (heq : s.sys.accCnt = s.cfg.LIM) (x : Int) :
    ∃ t, acceptSample s x = .next t ∧ t.sys.accValid = true ∧ t.sys.accCnt = 0 ∧ t.sys.accSum = 0 ∧
      t.sys.accOut = wrap s.cfg.W (s.sys.accSum + x) := by
  refine ⟨_, acceptSample_eq s x, ?_⟩
  rw [accUpd_emit (s := s.offered x) rfl heq]
  exact ⟨rfl, rfl, rfl, rfl⟩

/-- From any count the samples up to the boundary and the one at it end in the emitted sum: each but the
last adds itself to the sum. -/
theorem acceptAll_emits {s : State} {x : Int} {xs : List Int}
    (hcnt : s.sys.accCnt + xs.length = s.cfg.LIM) :
    ∃ t, acceptAll (x :: xs) s = .next t ∧ t.sys.accValid = true ∧ t.sys.accCnt = 0 ∧
      t.sys.accSum = 0 ∧ t.sys.accOut = wrap s.cfg.W (s.sys.accSum + (x :: xs).sum) := by
  induction xs generalizing s x with
  | nil =>
    obtain ⟨t, ht, hemit⟩ := acceptSample_emit hcnt x
    refine ⟨t, ?_, ?_⟩
    · rw [acceptAll, ht]; rfl
    · rwa [List.sum_singleton]
  | cons y ys ih =>
    rw [List.length_cons] at hcnt
    obtain ⟨u, hu, hcfg, hucnt, husum⟩ := acceptSample_add (s := s) (by omega) x
    obtain ⟨t, ht, hemit⟩ := ih (s := u) (x := y) (by rw [hucnt, hcfg]; omega)
    refine ⟨t, ?_, ?_⟩
    · rw [acceptAll, hu, andThen_next, ht]
    · rwa [hcfg, husum, wrap_add_wrap, add_assoc, ← List.sum_cons] at hemit

/-- Settles O27: a group is LIM + 1 samples, and its sum starts from 0. -/
theorem accumulatorEmitsGroupSum : Obligations.AccumulatorEmitsGroupSum := by
  unfold Obligations.AccumulatorEmitsGroupSum
  intro s xs hlegal hcnt hsum hlen
  have hD := hlegal.inRange.decimation
  have hgroup : xs.length = s.cfg.LIM + 1 := by
    cases hm : s.cfg.accMode with
    | literal => rw [hlen, hm, Config.LIM_of_literal hm]
    | corrected => rw [hlen, hm, Config.LIM_of_corrected hm, Nat.sub_add_cancel hD]
  obtain ⟨x, rest, rfl⟩ := List.exists_cons_of_length_eq_add_one hgroup
  obtain ⟨t, ht, hvalid, hcnt', hsum', hout⟩ :=
    acceptAll_emits (s := s) (x := x) (xs := rest) (by rw [hcnt, zero_add]; exact Nat.succ.inj hgroup)
  rw [hsum, zero_add] at hout
  exact ⟨t, ht, hvalid, hcnt', hsum', hout,
    fun hfit => hout.trans (wrap_of_fits hlegal.inRange.sumWidth hfit)⟩

end Machine

end Sys2Proof
end

section
/-!
PROOFS. The Queue (44_queue.md): its operations (R210 to R213), its tick by `in_valid`, the read port in and
past the slots (R73), and the order in which accepted writes fill the ring (R214).
-/

namespace Sys2Proof.Machine

/-! ### The read port (R73, R213) -/

theorem State.qOut_of_slot {s : State} {v : Int} (h : Memory.read s.sys.qmem s.sys.hRd = some v) :
    s.qOut = v := by
  rw [State.qOut, h]

theorem State.qOut_of_no_slot {s : State} (h : Memory.read s.sys.qmem s.sys.hRd = none) :
    s.qOut = wrap s.cfg.T (Config.readDraw s.draws) := by
  rw [State.qOut, h]

/-- Reading a slot takes no free value. -/
theorem readUpd_of_slot {s : State} {v : Int} (h : Memory.read s.sys.qmem s.sys.hRd = some v) :
    readUpd s = s.setRead v s.draws := by
  rw [readUpd, State.qOut_of_slot h, h]
  rfl

/-- A read past the slots takes the next free value (R73). -/
theorem readUpd_of_no_slot {s : State} (h : Memory.read s.sys.qmem s.sys.hRd = none) :
    readUpd s = s.setRead (wrap s.cfg.T (Config.readDraw s.draws)) (s.draws + 1) := by
  rw [readUpd, State.qOut_of_no_slot h, h]
  rfl

theorem Memory.read_eq_none_of_le {m : Memory} {i : Nat} (h : m.length ≤ i) : Memory.read m i = none :=
  List.getElem?_eq_none h

theorem Memory.exists_read_of_lt {m : Memory} {i : Nat} (h : i < m.length) :
    ∃ v ∈ m, Memory.read m i = some v :=
  ⟨m[i], List.getElem_mem h, List.getElem?_eq_getElem h⟩

/-- The `sys` edge leaves what the read port gave, with and without reset (R213; log entry 26). -/
theorem exists_sysEdge_next_read {s : State} (hw : s.Wf) :
    ∃ u, sysEdge s.beginTick = .next u ∧ u.qOutRead = (readUpd s).qOutRead ∧
      u.draws = (readUpd s).draws := by
  cases hr : s.nextRst with
  | true => exact ⟨_, sysEdge_reset hr, rfl, rfl⟩
  | false =>
    obtain ⟨-, -, -, ⟨hdec, -⟩, -⟩ := id hw
    exact ⟨_, sysEdge_upd hr hdec hw.qWr_lt, rfl, rfl⟩

/-- The `adc` edge does not read the queue. -/
theorem read_of_adcEdge_next {s t : State} (h : adcEdge s = .next t) :
    t.qOutRead = s.qOutRead ∧ t.draws = s.draws := by
  cases hr : s.rst with
  | true =>
    rw [adcEdge_reset hr] at h
    cases h
    exact ⟨rfl, rfl⟩
  | false =>
    obtain ⟨r, rfl⟩ := exists_setAdcNext_of_adcEdge_next hr h
    exact ⟨rfl, rfl⟩

/-- What the wire carries and how many free values are taken, at a slot and past the slots. -/
theorem State.Wf.readUpd_eq {s : State} (hw : s.Wf) :
    (s.sys.hRd < s.cfg.K ∧ ∃ v, fitsSigned s.cfg.T v = true ∧
        Memory.read s.sys.qmem s.sys.hRd = some v ∧ readUpd s = s.setRead v s.draws) ∨
      (s.cfg.K ≤ s.sys.hRd ∧
        readUpd s = s.setRead (wrap s.cfg.T (Config.readDraw s.draws)) (s.draws + 1)) := by
  obtain ⟨-, -, -, ⟨-, -, -, -, -, -, hmem, -⟩, -⟩ := hw
  obtain ⟨hlen, hfits⟩ := (Memory.wf_iff _ _).1 hmem
  rw [← hlen]
  rcases Nat.lt_or_ge s.sys.hRd s.sys.qmem.length with hlt | hge
  · obtain ⟨v, hv, hread⟩ := Memory.exists_read_of_lt hlt
    exact .inl ⟨hlt, v, hfits v hv, hread, readUpd_of_slot hread⟩
  · exact .inr ⟨hge, readUpd_of_no_slot (Memory.read_eq_none_of_le hge)⟩

/-- Settles O31: the two cases of the read, which the `sys` edge records and the `adc` edge leaves. -/
theorem queueReadPort : Obligations.QueueReadPort := by
  unfold Obligations.QueueReadPort
  intro s hw
  obtain ⟨hlegal, hrun, -⟩ := id hw
  obtain ⟨u, hu, hout, hdraws⟩ := exists_sysEdge_next_read hw
  have hstep {t : State} (h : step s = .next t) : t.qOutRead = u.qOutRead ∧ t.draws = u.draws := by
    rw [step_run hrun, tick, hu, andThen_next] at h
    exact read_of_adcEdge_next h
  rcases hw.readUpd_eq with ⟨hlt, v, hfits, hread, hupd⟩ | ⟨hge, hupd⟩
  · have hq : s.qOut = v := State.qOut_of_slot hread
    rw [hupd] at hout hdraws
    rw [hq, if_pos hlt]
    exact ⟨hfits, fun _ => hread.symm, fun hge => absurd hlt hge.not_gt, ⟨u, hu, hout, hdraws⟩,
      fun t ht => ⟨(hstep ht).1.trans hout, (hstep ht).2.trans hdraws⟩⟩
  · have hq : s.qOut = wrap s.cfg.T (Config.readDraw s.draws) := congrArg State.qOutRead hupd
    rw [hupd] at hout hdraws
    rw [hq, if_neg hge.not_gt]
    exact ⟨fitsSigned_wrap hlegal.inRange.entryWidth _, fun hlt => absurd hlt hge.not_gt, fun _ => rfl,
      ⟨u, hu, hout, hdraws⟩, fun t ht => ⟨(hstep ht).1.trans hout, (hstep ht).2.trans hdraws⟩⟩

/-! ### The operations (R210 to R213) -/

/-- A write cursor past the slots is the model's own fault (log entry 19). -/
theorem queueWrite_of_no_slot {s : State} (h : s.sys.qmem.length ≤ s.sys.qWr) (wr : Nat) :
    queueWrite wr s = .fault (.queueWriteOutside s.sys.qWr) :=
  if_neg h.not_gt

/-- Settles O28: the write rows by whether the cursor names a slot, the read row by whether the index
does. -/
theorem queueOperationsComplete : Obligations.QueueOperationsComplete := by
  unfold Obligations.QueueOperationsComplete
  refine fun s => ⟨rfl, fun h => ⟨queueWrite_eq h _, queueWrite_eq h _⟩,
    fun h => ⟨queueWrite_of_no_slot h _, queueWrite_of_no_slot h _⟩, fun v hv => ?slot, fun h => ?noSlot⟩
  case slot =>
    show execQRead s = _
    rw [execQRead_eq, readUpd_of_slot hv]
    rfl
  case noSlot =>
    show execQRead s = _
    rw [execQRead_eq, readUpd_of_no_slot (Memory.read_eq_none_of_le h)]
    rfl

/-! ### The writes of a tick (R210 to R212) -/

/-- The cursor's width holds the number of slots (R10). -/
theorem K_le_two_pow_QW (c : Config) : c.K ≤ 2 ^ c.QW :=
  (le_two_pow_clog2 _).trans (Nat.pow_le_pow_right (by norm_num) (le_max_right _ _))

theorem queueUpd_nowrite {s : State} (hv : s.sys.accValid = false) (r : SysRegs) : queueUpd s r = r :=
  if_neg (by simp [hv])

/-- The write cursor's next value, within its width (R10, R211). -/
theorem queueUpd_write {s : State} (hv : s.sys.accValid = true) (hq : s.sys.qWr < s.cfg.K) (r : SysRegs) :
    queueUpd s r =
      { r with
        qmem := Memory.write r.qmem s.sys.qWr (truncEntry s.cfg s.sys.accOut)
        qWr := if s.sys.qWr = s.cfg.K - 1 then 0 else s.sys.qWr + 1 } := by
  rw [queueUpd, if_pos hv]
  by_cases hlast : s.sys.qWr = s.cfg.K - 1
  · have hl : s.wrLast = true := by simpa [State.wrLast] using hlast
    rw [if_pos hl, if_pos hlast]
  · have hl : ¬ s.wrLast = true := by simpa [State.wrLast] using hlast
    have hfit : s.sys.qWr + 1 < 2 ^ s.cfg.QW := by
      have := K_le_two_pow_QW s.cfg
      omega
    rw [if_neg hl, if_neg hlast, cut_of_lt hfit]

/-- The Queue's registers after the `sys` edge are what the Queue writes (R30). -/
theorem queue_sysUpd (s : State) (r : SysRegs) :
    (sysUpd s r).qmem = (queueUpd s r).qmem ∧ (sysUpd s r).qWr = (queueUpd s r).qWr := by
  have hdec : (decUpd s r).qmem = r.qmem ∧ (decUpd s r).qWr = r.qWr := by
    unfold decUpd
    split_ifs <;> exact ⟨rfl, rfl⟩
  have hacc : (accUpd s (decUpd s r)).qmem = r.qmem ∧ (accUpd s (decUpd s r)).qWr = r.qWr := by
    unfold accUpd
    split_ifs <;> exact hdec
  obtain ⟨hmem, hwr⟩ := hacc
  unfold sysUpd cursorUpd queueUpd
  split_ifs <;> simp only [hmem, hwr, and_self]

/-- The Queue after a tick without reset: its registers are what it writes (R230). -/
theorem step_next_queue {s t : State} (hw : s.Wf) (hr : s.nextRst = false) (h : step s = .next t) :
    t.sys.qmem = (queueUpd s s.sys).qmem ∧ t.sys.qWr = (queueUpd s s.sys).qWr := by
  obtain ⟨-, hrun, -⟩ := id hw
  rw [step_run hrun] at h
  obtain ⟨-, hsys, -⟩ := tick_next_regs hw hr h
  rw [hsys]
  exact queue_sysUpd s.beginTick s.sys

/-- Settles O30: the Queue's writes without and with an accepted sum. -/
theorem queueWriteTick : Obligations.QueueWriteTick := by
  unfold Obligations.QueueWriteTick
  intro s t hw hr h
  obtain ⟨-, -, -, ⟨-, -, -, -, -, hq, -⟩, -⟩ := id hw
  obtain ⟨hmem, hwr⟩ := step_next_queue hw hr h
  rw [hmem, hwr]
  refine ⟨fun hv => ?nowrite, fun hv => ?write⟩
  case nowrite =>
    rw [queueUpd_nowrite hv]
    exact ⟨rfl, fun _ => rfl⟩
  case write =>
    rw [queueUpd_write hv hq]
    refine ⟨rfl, ?_, fun i hi => ?_⟩
    · rw [Memory.read_write, if_pos rfl, if_pos hw.qWr_lt]
    · rw [Memory.read_write, if_neg hi]

/-! ### The ring (R214) -/

/-- The state in which the Queue is offered the value v: no reset, `in_valid` = 1, `in_data` = v. -/
def State.offeredSum (s : State) (v : Int) : State :=
  { s with rst := false, sys := { s.sys with accValid := true, accOut := v } }

/-- Accepting a value is the Queue's own writes, committed. -/
theorem acceptWrite_eq {s : State} (hq : s.sys.qWr < s.sys.qmem.length) (v : Int) :
    acceptWrite s v =
      .next ((s.offeredSum v).setSysNext (queueUpd (s.offeredSum v) (s.offeredSum v).sys)).commitSys := by
  have hperform := perform_qsel_upd (s := s.offeredSum v) rfl hq (s.offeredSum v).sys
  show andThen (perform .qsel ((s.offeredSum v).setSysNext (s.offeredSum v).sys)) _ = _
  rw [hperform, andThen_next]

theorem acceptWrites_append (vs ws : List Int) (s : State) :
    acceptWrites (vs ++ ws) s = andThen (acceptWrites vs s) (acceptWrites ws) := by
  induction vs generalizing s with
  | nil => rfl
  | cons v vs ih =>
    rw [List.cons_append, acceptWrites, acceptWrites]
    cases acceptWrite s v with
    | next u => exact ih u
    | fault r => rfl
    | refused r => rfl

/-- The Queue's registers after the accepted values vs, the first of them stored in slot 0: K slots, a
cursor that counts the values modulo K, and each of the last K values in its slot. -/
def RingAfter (c : Config) (vs : List Int) (r : SysRegs) : Prop :=
  r.qmem.length = c.K ∧ r.qWr = vs.length % c.K ∧
    ∀ w v, vs[w]? = some v → vs.length ≤ w + c.K →
      Memory.read r.qmem (w % c.K) = some (truncEntry c v)

theorem ringAfter_nil {c : Config} {r : SysRegs} (hlen : r.qmem.length = c.K) (hq : r.qWr = 0) :
    RingAfter c [] r :=
  ⟨hlen, by rw [hq, List.length_nil, Nat.zero_mod], nofun⟩

/-- The cursor that wraps at K counts modulo K (R211). -/
theorem cursor_succ_eq_mod {n K : Nat} (hK : 1 ≤ K) :
    (if n % K = K - 1 then 0 else n % K + 1) = (n + 1) % K := by
  rw [← Nat.mod_add_mod]
  split_ifs with hlast
  · rw [hlast, Nat.sub_add_cancel hK, Nat.mod_self]
  · have := Nat.mod_lt n hK
    exact (Nat.mod_eq_of_lt (by omega)).symm

/-- Of K successive values no two share a slot. -/
theorem mod_ne_of_lt_of_le {w n K : Nat} (hlt : w < n) (hle : n < w + K) : w % K ≠ n % K := by
  intro heq
  have hdvd : K ∣ n - w := (Nat.modEq_iff_dvd' hlt.le).1 heq
  have := Nat.le_of_dvd (Nat.sub_pos_of_lt hlt) hdvd
  omega

/-- One more accepted value goes to the slot at the cursor, which holds none of the K - 1 values before
it. -/
theorem ringAfter_append {s : State} {vs : List Int} (hK : 1 ≤ s.cfg.K) (h : RingAfter s.cfg vs s.sys)
    (v : Int) : ∃ t, acceptWrite s v = .next t ∧ t.cfg = s.cfg ∧ RingAfter s.cfg (vs ++ [v]) t.sys := by
  obtain ⟨hlen, hwr, hslots⟩ := h
  have hq : s.sys.qWr < s.cfg.K := hwr ▸ Nat.mod_lt _ hK
  refine ⟨_, acceptWrite_eq (hlen.symm ▸ hq) v, rfl, ?_⟩
  rw [queueUpd_write (s := s.offeredSum v) rfl hq]
  refine ⟨(Memory.length_write _ _ _).trans hlen, ?cursor, fun w x hx hle => ?slots⟩
  case cursor =>
    rw [List.length_append, List.length_singleton, ← cursor_succ_eq_mod hK, ← hwr]
    rfl
  case slots =>
    show Memory.read (Memory.write s.sys.qmem s.sys.qWr (truncEntry s.cfg v)) (w % s.cfg.K) = _
    rw [List.length_append, List.length_singleton] at hle
    rw [Memory.read_write]
    rcases Nat.lt_or_ge w vs.length with hlt | hge
    · rw [List.getElem?_append_left hlt] at hx
      rw [if_neg (hwr ▸ mod_ne_of_lt_of_le hlt (by omega))]
      exact hslots w x hx (by omega)
    · obtain ⟨rfl, rfl⟩ : w = vs.length ∧ v = x := by
        rw [List.getElem?_append_right hge, List.getElem?_singleton] at hx
        split_ifs at hx with h0
        exact ⟨by omega, Option.some.inj hx⟩
      rw [if_pos hwr.symm, if_pos (hlen.symm ▸ hq)]

/-- Any list of values is accepted from a cursor at 0, and fills the ring in order. -/
theorem acceptWrites_ring {s : State} (hK : 1 ≤ s.cfg.K) (hlen : s.sys.qmem.length = s.cfg.K)
    (hq : s.sys.qWr = 0) (vs : List Int) :
    ∃ t, acceptWrites vs s = .next t ∧ t.cfg = s.cfg ∧ RingAfter s.cfg vs t.sys := by
  induction vs using List.reverseRecOn with
  | nil => exact ⟨s, rfl, rfl, ringAfter_nil hlen hq⟩
  | append_singleton vs v ih =>
    obtain ⟨u, hu, hcfg, hring⟩ := ih
    rw [← hcfg] at hK hring ⊢
    obtain ⟨t, ht, hcfg', hring'⟩ := ringAfter_append hK hring v
    refine ⟨t, ?_, hcfg', hring'⟩
    rw [acceptWrites_append, hu, andThen_next, acceptWrites, ht]
    rfl

/-- Settles O32: the ring after all the writes. -/
theorem queueRingOrder : Obligations.QueueRingOrder := by
  unfold Obligations.QueueRingOrder
  intro s t vs hw hq h
  obtain ⟨hlegal, -, -, ⟨-, -, -, -, -, -, hmem, -⟩, -⟩ := hw
  obtain ⟨hlen, -⟩ := (Memory.wf_iff _ _).1 hmem
  obtain ⟨u, hu, -, -, hring⟩ := acceptWrites_ring hlegal.inRange.capacity hlen hq vs
  rw [hu] at h
  cases h
  exact hring

end Sys2Proof.Machine
end

section
/-!
PROOFS. The Harness's read cursor (45_harness.md): its operations and its tick by the period counter
(R235, R236).
-/

namespace Sys2Proof.Machine

/-- Settles O33: the two rows' arms. -/
theorem readCursorOperationsComplete : Obligations.ReadCursorOperationsComplete := by
  unfold Obligations.ReadCursorOperationsComplete
  exact fun _ => ⟨rfl, rfl⟩

/-- The period counter's width holds the period (R10). -/
theorem rdPeriod_le_two_pow_PW (c : Config) : c.rdPeriod ≤ 2 ^ c.PW :=
  (le_two_pow_clog2 _).trans (Nat.pow_le_pow_right (by norm_num) (le_max_right _ _))

/-- Before the period's last tick the counter counts, within its width (R10, R235). -/
theorem cursorUpd_wait {s : State} (hlt : s.sys.hRdcnt < s.cfg.rdPeriod)
    (hne : s.sys.hRdcnt ≠ s.cfg.rdPeriod - 1) (r : SysRegs) :
    cursorUpd s r = { r with hRdcnt := s.sys.hRdcnt + 1 } := by
  have hd : ¬ s.rdDue = true := by simp [State.rdDue, hne]
  have hfit : s.sys.hRdcnt + 1 < 2 ^ s.cfg.PW := by
    have := rdPeriod_le_two_pow_PW s.cfg
    omega
  rw [cursorUpd, if_neg hd, cut_of_lt hfit]

theorem cursorUpd_advance {s : State} (heq : s.sys.hRdcnt = s.cfg.rdPeriod - 1) (r : SysRegs) :
    cursorUpd s r = { r with hRdcnt := 0, hRd := (s.sys.hRd + 1) % 2 ^ s.cfg.QW } := by
  have hd : s.rdDue = true := by simp [State.rdDue, heq]
  rw [cursorUpd, if_pos hd]
  rfl

/-- Registers alike for the read cursor are alike after its writes. -/
theorem sameCursor_cursorUpd {r q : SysRegs} (h : SameCursor r q) (s : State) :
    SameCursor (cursorUpd s r) (cursorUpd s q) := by
  obtain ⟨hrd, -⟩ := h
  unfold cursorUpd
  split_ifs
  exacts [⟨rfl, rfl⟩, ⟨hrd, rfl⟩]

/-- The other components of the `sys` domain leave the read cursor's registers alone (R30). -/
theorem sameCursor_sysUpd (s : State) (r : SysRegs) : SameCursor (cursorUpd s r) (sysUpd s r) := by
  have hdec : SameCursor r (decUpd s r) := by
    unfold decUpd
    split_ifs <;> exact ⟨rfl, rfl⟩
  have hacc : SameCursor r (accUpd s (decUpd s r)) := by
    unfold accUpd
    split_ifs <;> exact hdec
  have hqueue : SameCursor r (queueUpd s (accUpd s (decUpd s r))) := by
    unfold queueUpd
    split_ifs <;> exact hacc
  exact sameCursor_cursorUpd hqueue s

/-- The read cursor after a tick without reset: its registers are what it writes (R230). -/
theorem step_next_cursor {s t : State} (hw : s.Wf) (hr : s.nextRst = false) (h : step s = .next t) :
    SameCursor (cursorUpd s s.sys) t.sys := by
  obtain ⟨-, hrun, -⟩ := id hw
  rw [step_run hrun] at h
  obtain ⟨-, hsys, -⟩ := tick_next_regs hw hr h
  rw [hsys]
  exact sameCursor_sysUpd s.beginTick s.sys

/-- Settles O34: the read cursor's writes before the period's last tick and at it. -/
theorem readCursorTick : Obligations.ReadCursorTick := by
  unfold Obligations.ReadCursorTick
  intro s t hw hr h
  obtain ⟨-, -, -, ⟨-, -, -, -, -, -, -, -, hlt⟩, -⟩ := id hw
  obtain ⟨hrd, hcnt⟩ := step_next_cursor hw hr h
  rw [hrd, hcnt]
  refine ⟨fun hne => ?wait, fun heq => ?advance⟩
  case wait =>
    rw [cursorUpd_wait hlt hne]
    exact ⟨rfl, rfl⟩
  case advance =>
    rw [cursorUpd_advance heq]
    exact ⟨rfl, rfl⟩

end Sys2Proof.Machine
end

section
/-!
PROOFS. The checks of construction (R7, R251, R252): the checks 1 to 3 as the ranges and in the order the spec
lists them, and the checks 4 and 5 on a given table and the listed power-on values.
-/

namespace Sys2Proof

open Machine

/-! ### The checks 1 to 3 (R251, R252) -/

theorem Proposal.badBits_iff (p : Proposal) :
    p.badBits = true ↔ ∃ b, p.source = .bits b ∧ (b.length : Int) ≠ p.B := by
  unfold badBits
  split
  · next b hb => simp [hb]
  · next t ht => simp [ht]

/-- The code's checks are R252's, in the same order and with the same errors. -/
theorem Proposal.reportOrder_eq_map (p : Proposal) :
    p.reportOrder = p.paramChecks.map fun e => (e.1 = true, e.2) := by
  simp only [reportOrder, paramChecks, List.map_cons, List.map_nil, decide_eq_true_eq,
    Tone.nonpositive_iff, badBits_iff]
  rfl

theorem Proposal.accepted_iff (p : Proposal) : p.Accepted ↔ ∀ e ∈ p.reportOrder, ¬ e.1 := by
  rw [Proposal.Accepted, firstError_eq_none_iff, reportOrder_eq_map, List.forall_mem_map]
  simp only [Bool.not_eq_true]

/-- Parameters in their ranges fail none of the checks. -/
theorem Config.InRange.legal {c : Config} (h : c.InRange) : c.Legal := by
  obtain ⟨hN, hC, hD, hK, hB, hP, hT, hW, hF, hR, h1, h0, hrd, hbits⟩ := h
  rw [Config.Legal, Proposal.accepted_iff]
  simp only [Proposal.reportOrder, List.forall_mem_cons, Config.proposal_toConfig]
  simp only [Config.proposal]
  refine ⟨?_, ?_, ?_, ?_, ?_, ?_, ?_, ?_, ?_, ?_, ?_, ?_, not_le.2 h1, not_le.2 h0, ?_, ?bits, ?_, ?_,
    List.forall_mem_nil _⟩
  case bits =>
    rintro ⟨b, hb, hne⟩
    exact hne (congrArg _ (hbits b hb))
  all_goals omega

/-- An accepted proposal has no negative integer, so it is its own configuration's. -/
theorem Proposal.Accepted.eq_proposal {p : Proposal} (h : p.Accepted) : p = p.toConfig.proposal := by
  rw [Proposal.accepted_iff] at h
  simp only [reportOrder, List.forall_mem_cons] at h
  obtain ⟨-, -, -, -, hD, hK, hB, hP, hN, hC, hF, hR, -, -, hrd, -, hT, -⟩ := h
  have hnat {x : Int} (hx : 0 ≤ x) : x = x.toNat := (Int.toNat_of_nonneg hx).symm
  cases p
  simp only [toConfig, Config.proposal, Proposal.mk.injEq, true_and] at *
  refine ⟨hnat ?_, hnat ?_, hnat ?_, hnat ?_, hnat ?_, hnat ?_, hnat ?_, hnat ?_, hnat ?_, hnat ?_⟩ <;>
    omega

/-- Settles O47: no check fails exactly when every range holds, and what is accepted has no negative
integer. -/
theorem legalParametersAreInRange : Obligations.LegalParametersAreInRange := by
  unfold Obligations.LegalParametersAreInRange
  refine ⟨fun c => ⟨Config.Legal.inRange, Config.InRange.legal⟩, fun p => ⟨fun h => ?_, ?_⟩⟩
  · have hp := h.eq_proposal
    have hlegal : p.toConfig.Legal := hp ▸ h
    exact ⟨p.toConfig, hlegal.inRange, hp⟩
  · rintro ⟨c, hc, rfl⟩
    exact hc.legal

namespace Machine

/-! ### The first entry of a list that fails (R252) -/

/-- The error of the first entry that is bad, its index counted from i on: what each of construction's
checks of a list computes. -/
def firstBad {α : Type} (bad : α → Bool) (err : Nat → α → Refusal) : Nat → List α → Option Refusal
  | _, [] => none
  | i, a :: l => if bad a then some (err i a) else firstBad bad err (i + 1) l

section

variable {α : Type} {bad : α → Bool} {err : Nat → α → Refusal} {l : List α}

theorem firstBad_of_good (h : ∀ a ∈ l, bad a = false) (i : Nat) : firstBad bad err i l = none := by
  induction l generalizing i with
  | nil => rfl
  | cons a l ih =>
    obtain ⟨ha, hl⟩ := List.forall_mem_cons.1 h
    rw [firstBad, if_neg (by simp [ha]), ih hl]

theorem firstBad_of_first {k : Nat} {a : α} (hk : l[k]? = some a) (ha : bad a = true)
    (hbefore : ∀ j b, j < k → l[j]? = some b → bad b = false) (i : Nat) :
    firstBad bad err i l = some (err (i + k) a) := by
  induction l generalizing i k with
  | nil => cases hk
  | cons b l ih =>
    cases k with
    | zero =>
      cases hk
      exact if_pos ha
    | succ k =>
      have hb : bad b = false := hbefore 0 b (Nat.succ_pos k) rfl
      rw [firstBad, if_neg (by simp [hb]),
        ih hk fun j d hj hd => hbefore (j + 1) d (Nat.succ_lt_succ hj) hd, Nat.add_right_comm]
      rfl

end

theorem firstError_eq_firstBad (l : List (Bool × Refusal)) (i : Nat) :
    firstError l = firstBad Prod.fst (fun _ e => e.2) i l := by
  induction l generalizing i with
  | nil => rfl
  | cons e l ih => rw [firstError, firstBad, ih (i + 1)]

theorem tableBitError_eq_firstBad (t : Nat) (l : List (Int × Int)) :
    tableBitError t l =
      firstBad (fun e => !decide (e.1 = 0 ∨ e.1 = 1)) (fun t e => .ce4BadConfig (.tableBit t e.1)) t l := by
  induction l generalizing t with
  | nil => rfl
  | cons e l ih =>
    rw [tableBitError, firstBad, ih]
    by_cases hb : e.1 = 0 ∨ e.1 = 1 <;> simp [hb]

theorem tableValueError_eq_firstBad (c : Config) (t : Nat) (l : List (Int × Int)) :
    tableValueError c t l =
      firstBad (fun e => !fitsSigned c.N e.2) (fun t e => .ce2WidthTooSmall (.tableValue t e.2)) t l := by
  induction l generalizing t with
  | nil => rfl
  | cons e l ih =>
    rw [tableValueError, firstBad, ih]
    cases fitsSigned c.N e.2 <;> rfl

/-! ### The steps of construction (R252) -/

/-- The first step refuses a proposal with the first of the checks 1 to 3 that fails. -/
theorem step_unbuilt_of_error {p : Proposal} {r : Refusal} (h : firstError p.paramChecks = some r) :
    step (State.unbuilt p) = .refused r := by
  show constructStep p _ = _
  simp only [constructStep, h]

/-- Settles O48: the code's checks are R252's, and it reports the first that fails. -/
theorem constructionReportsFirstError : Obligations.ConstructionReportsFirstError := by
  unfold Obligations.ConstructionReportsFirstError
  intro p k bad r hk hbad hbefore
  rw [p.reportOrder_eq_map] at hk hbefore
  simp only [List.getElem?_map, Option.map_eq_some_iff] at hk hbefore
  obtain ⟨⟨b, q⟩, hb, heq⟩ := hk
  obtain ⟨rfl, rfl⟩ := Prod.mk.inj heq
  refine step_unbuilt_of_error ?_
  rw [firstError_eq_firstBad _ 0]
  exact firstBad_of_first hb hbad
    (fun j e hj he => Bool.eq_false_iff.2 (hbefore j _ _ hj ⟨e, he, rfl⟩)) 0

section

variable {c : Config} {tbl : List (Int × Int)} (hc : c.Legal) (hs : c.source = .given tbl)
include hc hs

/-- The first step refuses a table that check 4 refuses. -/
theorem step_unbuilt_of_tableError {r : Refusal} (h : tableError c tbl = some r) :
    step (State.unbuilt c.proposal) = .refused r := by
  have hparams : firstError c.proposal.paramChecks = none := hc
  have hsrc : c.proposal.source = .given tbl := hs
  show constructStep c.proposal _ = _
  simp only [constructStep, hparams, hsrc, Config.proposal_toConfig, h]

/-- With a table that passes, the checks 5 to 7 are the second step. -/
theorem stepsFrom_two_of_given (h : tableError c tbl = none) :
    stepsFrom 2 (State.unbuilt c.proposal) =
      finishStep { State.powerOn c (givenTable tbl) with stage := .finish } := by
  have hparams : firstError c.proposal.paramChecks = none := hc
  have hsrc : c.proposal.source = .given tbl := hs
  have hcheck : step (State.unbuilt c.proposal) =
      .next { State.powerOn c (givenTable tbl) with stage := .finish } := by
    show constructStep c.proposal (State.unbuilt c.proposal) = _
    simp only [constructStep, hparams, hsrc, Config.proposal_toConfig, h]
    rfl
  rw [stepsFrom_succ, hcheck, andThen_next, stepsFrom_one]
  rfl

end

/-! ### Check 4 on a given table (R251, R252) -/

theorem tableError_of_length {c : Config} {tbl : List (Int × Int)} (h : tbl.length ≠ c.L) :
    tableError c tbl = some (.ce4BadConfig (.tableLength tbl.length)) :=
  if_pos h

section

variable {c : Config} {tbl : List (Int × Int)} (hlen : tbl.length = c.L)
include hlen

theorem tableError_of_bit {t : Nat} {b q : Int} (ht : tbl[t]? = some (b, q)) (h0 : b ≠ 0) (h1 : b ≠ 1)
    (hbefore : ∀ u e, u < t → tbl[u]? = some e → e.1 = 0 ∨ e.1 = 1) :
    tableError c tbl = some (.ce4BadConfig (.tableBit t b)) := by
  have hbit : tableBitError 0 tbl = some (.ce4BadConfig (.tableBit (0 + t) b)) := by
    rw [tableBitError_eq_firstBad]
    exact firstBad_of_first ht (by simp [h0, h1]) (fun u e hu he => by simp [hbefore u e hu he]) 0
  rw [tableError, if_neg (not_not.2 hlen), hbit, Nat.zero_add]

/-- After the bits come the values. -/
theorem tableError_of_bits (hbits : ∀ e ∈ tbl, e.1 = 0 ∨ e.1 = 1) :
    tableError c tbl = tableValueError c 0 tbl := by
  have hbit : tableBitError 0 tbl = none := by
    rw [tableBitError_eq_firstBad]
    exact firstBad_of_good (fun e he => by simp [hbits e he]) 0
  rw [tableError, if_neg (not_not.2 hlen), hbit]

end

theorem tableValueError_of_first {c : Config} {tbl : List (Int × Int)} {t : Nat} {b q : Int}
    (ht : tbl[t]? = some (b, q)) (hq : fitsSigned c.N q = false)
    (hbefore : ∀ u e, u < t → tbl[u]? = some e → fitsSigned c.N e.2 = true) :
    tableValueError c 0 tbl = some (.ce2WidthTooSmall (.tableValue t q)) := by
  rw [tableValueError_eq_firstBad,
    firstBad_of_first ht (by simp [hq]) (fun u e hu he => by simp [hbefore u e hu he]), Nat.zero_add]

theorem tableValueError_of_fits {c : Config} {tbl : List (Int × Int)}
    (h : ∀ e ∈ tbl, fitsSigned c.N e.2 = true) : tableValueError c 0 tbl = none := by
  rw [tableValueError_eq_firstBad]
  exact firstBad_of_good (fun e he => by simp [h e he]) 0

/-! ### The checks 5 to 7 (R252) -/

theorem finishStep_of_fits {s : State} (h : s.cfg.QueueInitFits) : finishStep s = .next s.built := by
  have hqueue : queueInitError s.cfg 0 (s.cfg.qmemInit.take s.cfg.K) = none :=
    queueInitError_of_fits h 0
  simp only [finishStep, hqueue, wireCycle_wireReads]

theorem finishStep_of_first {s : State} {i : Nat} {v : Int} (hi : i < s.cfg.K)
    (hv : s.cfg.qmemInit[i]? = some v) (hbad : fitsSigned s.cfg.T v = false)
    (hbefore : ∀ j u, j < i → s.cfg.qmemInit[j]? = some u → fitsSigned s.cfg.T u = true) :
    finishStep s = .refused (.ce4BadConfig (.queueInit i v)) := by
  have htake {j : Nat} (hj : j < s.cfg.K) :
      (s.cfg.qmemInit.take s.cfg.K)[j]? = s.cfg.qmemInit[j]? := List.getElem?_take_of_lt hj
  have hqueue : queueInitError s.cfg 0 (s.cfg.qmemInit.take s.cfg.K) =
      some (.ce4BadConfig (.queueInit (0 + i) v)) :=
    queueInitError_of_first ((htake hi).trans hv) hbad
      (fun j u hj hu => hbefore j u hj ((htake (hj.trans hi)).symm.trans hu)) 0
  simp only [finishStep, hqueue, Nat.zero_add]

/-- Settles O50: the first step makes the checks of the table in their order, the second those after it. -/
theorem constructionTakesAGivenTable : Obligations.ConstructionTakesAGivenTable := by
  unfold Obligations.ConstructionTakesAGivenTable
  intro c tbl hc hs
  refine ⟨fun hlen => step_unbuilt_of_tableError hc hs (tableError_of_length hlen),
    fun t b q hlen ht h0 h1 hbefore =>
      step_unbuilt_of_tableError hc hs (tableError_of_bit hlen ht h0 h1 hbefore),
    fun hlen hbits => ?_⟩
  have hvalues := tableError_of_bits hlen hbits
  refine ⟨fun t b q ht hq hbefore =>
    step_unbuilt_of_tableError hc hs (hvalues.trans (tableValueError_of_first ht hq hbefore)),
    fun hfits => ?_⟩
  have htwo := stepsFrom_two_of_given hc hs (hvalues.trans (tableValueError_of_fits hfits))
  exact ⟨fun i v hi hv hbad hbefore => htwo.trans (finishStep_of_first hi hv hbad hbefore),
    fun hqueue => htwo.trans (finishStep_of_fits hqueue)⟩

end Machine

end Sys2Proof
end

section
/-!
PROOFS. How a tick ends (R230, R256): with the codes of both FSMs used and the write cursor on a slot it
completes or is MF1, and MF1 only for a load past the table.
-/

namespace Sys2Proof.Machine

/-- No operation of a tick can fail but the load: both FSMs are in states their rows have, and the write
cursor names a slot (R72, R104). -/
def State.Sound (s : State) : Prop :=
  1 ≤ s.cfg.N ∧ s.sys.decState ≤ s.cfg.N + 3 ∧ s.sys.qWr < s.sys.qmem.length ∧
    s.adc.rspState ≤ s.cfg.N + 3

/-- The state after a tick without reset whose load, if it makes one, takes the entry e (R230). -/
def State.afterTick (s : State) (e : Bool × Int) : State :=
  ((midTick s).setAdcNext (countUpd (midTick s) (rspUpd (midTick s) e s.adc))).commitAdc

/-- A tick without reset completes, having found the entry of its load if it makes one, or it is MF1, with
the index and the tick's number, for a load past the table (R131, R256). -/
theorem tick_next_or_mf1 {s : State} (hs : s.Sound) (hr : s.nextRst = false) :
    (∃ e, ((midTick s).loads → tableRead s.gtab s.adc.rspIdx = some e) ∧
      tick s = .next (s.afterTick e)) ∨
    ((midTick s).loads ∧ tableRead s.gtab s.adc.rspIdx = none ∧
      tick s = .fault (.mf1OutOfTable s.adc.rspIdx (s.tick + 1))) := by
  obtain ⟨hN, hdec, hq, hrsp⟩ := hs
  by_cases hl : (midTick s).loads
  · cases he : tableRead s.gtab s.adc.rspIdx with
    | some e => exact .inl ⟨e, fun _ => rfl, tick_upd hr hdec hq hrsp fun _ => he⟩
    | none => exact .inr ⟨hl, rfl, tick_mf1 hr hN hdec hq hl he⟩
  · exact .inl ⟨(false, 0), fun hl' => absurd hl' hl, tick_upd hr hdec hq hrsp fun hl' => absurd hl' hl⟩

theorem State.Wf.sound {s : State} (hw : s.Wf) : s.Sound := by
  obtain ⟨hlegal, -, -, ⟨hdec, -⟩, ⟨hrsp, -⟩, -⟩ := id hw
  exact ⟨Nat.one_le_of_lt hlegal.inRange.sampleWidth, hdec, hw.qWr_lt, hrsp⟩

/-- Settles O51: a reset tick completes, any other completes or is MF1, and a table of L entries has none at
the index then. -/
theorem wellFormedTickCompletes : Obligations.WellFormedTickCompletes := by
  unfold Obligations.WellFormedTickCompletes
  intro s hw
  obtain ⟨-, hrun, ⟨hlen, -⟩, -⟩ := id hw
  rw [step_run hrun]
  cases hr : s.nextRst with
  | true => exact .inl ⟨_, tick_reset hr⟩
  | false =>
    rcases tick_next_or_mf1 hw.sound hr with ⟨e, -, h⟩ | ⟨⟨hcode, -⟩, hnone, h⟩
    · exact .inl ⟨_, h⟩
    · exact .inr ⟨h, rfl, hcode, hlen ▸ List.getElem?_eq_none_iff.1 hnone⟩

end Sys2Proof.Machine
end

section
/-!
PROOFS. The schedule from a reset (R143, R167, R236, R273, R288): every tick without reset takes it one tick
on, and with C + 1 = N + 4 it meets the end of the table after 1 + L (N + 4) ticks (R256).
-/

namespace Sys2Proof.Machine

/-! ### Counting modulo a period -/

/-- A count below its limit counts on. -/
theorem divMod_succ_of_ne {k d : Nat} (hd : 0 < d) (h : k % d ≠ d - 1) :
    (k + 1) % d = k % d + 1 ∧ (k + 1) / d = k / d := by
  have hlt := Nat.mod_lt k hd
  have hk := Nat.mod_add_div k d
  exact ((Nat.div_mod_unique hd).2 ⟨by omega, by omega⟩).symm

/-- A count at its limit starts again. -/
theorem divMod_succ_of_eq {k d : Nat} (hd : 0 < d) (h : k % d = d - 1) :
    (k + 1) % d = 0 ∧ (k + 1) / d = k / d + 1 := by
  have hk := Nat.mod_add_div k d
  refine ((Nat.div_mod_unique hd).2 ⟨?_, hd⟩).symm
  rw [Nat.mul_add_one]
  omega

/-! ### The index stays inside its width (R10, R46) -/

/-- The index width holds the table and the advances between two loads (R10). -/
theorem L_add_ADV_le_two_pow_IW (c : Config) : c.L + c.ADV ≤ 2 ^ c.IW :=
  (le_two_pow_clog2 _).trans (Nat.pow_le_pow_right (by norm_num) (le_max_right _ _))

/-- Between two loads the index advances ADV times at most (R10). -/
theorem cycles_le_ADV (c : Config) : c.N + 4 ≤ c.ADV * (c.C + 1) := by
  have hlt : c.N + 4 + c.C < c.ADV * (c.C + 1) + (c.C + 1) :=
    Nat.lt_div_mul_add (Nat.succ_pos c.C)
  omega

/-- While every load finds its entry the index does not wrap (R46). -/
theorem index_lt_two_pow_IW {c : Config} (hC : 1 ≤ c.C) {k : Nat}
    (hloads : ∀ j, 2 + j * (c.N + 4) ≤ k → loadIndex c j < c.L) : k / (c.C + 1) < 2 ^ c.IW := by
  by_cases hk : k < 2
  · rw [Nat.div_eq_of_lt (by omega)]
    exact Nat.two_pow_pos _
  have hC' : 0 < c.C + 1 := Nat.succ_pos c.C
  have hlow := Nat.div_mul_le_self (k - 2) (c.N + 4)
  have hhigh := Nat.lt_div_mul_add (a := k - 2) (b := c.N + 4) (Nat.succ_pos _)
  have hload := hloads ((k - 2) / (c.N + 4)) (by omega)
  rw [loadIndex, Nat.div_lt_iff_lt_mul hC'] at hload
  refine lt_of_lt_of_le ?_ (L_add_ADV_le_two_pow_IW c)
  rw [Nat.div_lt_iff_lt_mul hC', Nat.add_mul]
  have hadv := cycles_le_ADV c
  omega

/-! ### One tick of the schedule -/

/-- The FSMs after the writes of a tick from the same state, the device deselected exactly in IDLE: both in
the next state's code, and the device selected likewise (R167, R169). -/
theorem codes_succ_of_upd {s t : State} (hN : 1 ≤ s.cfg.N) (hdec : s.sys.decState ≤ s.cfg.N + 3)
    (hsame : s.adc.rspState = s.sys.decState) (hsel : s.sys.decCs = true ↔ s.sys.decState = idleCode)
    {e : Bool × Int} (hsys : SameDec (decUpd s s.sys) t.sys)
    (hadc : SameRspFsm (rspUpd (midTick s) e s.adc) t.adc) (hcs : (midTick s).cs = t.sys.decCs) :
    t.sys.decState = (s.sys.decState + 1) % (s.cfg.N + 4) ∧ t.adc.rspState = t.sys.decState ∧
      (t.sys.decCs = true ↔ t.sys.decState = idleCode) := by
  obtain ⟨hstate, hselect, -⟩ := hsys
  obtain ⟨hrsp, -⟩ := hadc
  rw [hselect] at hcs
  rw [hstate, hselect, hrsp]
  by_cases h0 : s.sys.decState = idleCode
  · rw [decUpd_idle h0] at hcs ⊢
    rw [rspUpd_idle (s := midTick s) (hsame.trans h0), hcs, h0]
    simp [wait1Code, idleCode]
  rcases Nat.lt_or_eq_of_le hdec with hlt | hlast
  · obtain ⟨hnext, hselect', -⟩ := decUpd_between hN h0 hlt s.sys
    have hcs0 : s.sys.decCs = false := Bool.eq_false_iff.2 (mt hsel.1 h0)
    rw [hselect', hcs0] at hcs
    have ha : ((midTick s).cfg.rspAbort && (midTick s).cs) = false := by simp [hcs]
    rw [rspUpd_between (s := midTick s) ha hN (hsame ▸ h0) (hsame ▸ hlt), hnext, hselect', hcs0,
      Nat.mod_eq_of_lt (Nat.succ_lt_succ hlt)]
    exact ⟨rfl, congrArg (· + 1) hsame, by simp [idleCode]⟩
  · rw [rspUpd_last (s := midTick s) hN (hsame.trans hlast), decUpd_bit0 hN hlast, hlast]
    simp [idleCode]

theorem State.OnSchedule.sound {s : State} {k : Nat} (h : s.OnSchedule k) : s.Sound := by
  obtain ⟨⟨hlegal, -, -, hlen, hwr⟩, hdec, hrsp, -⟩ := h
  have hlt : k % (s.cfg.N + 4) < s.cfg.N + 4 := Nat.mod_lt k (Nat.succ_pos _)
  exact ⟨Nat.one_le_of_lt hlegal.inRange.sampleWidth, by omega, hlen ▸ hwr, by omega⟩

/-- The Queue's writes keep the number of slots and the write cursor on one of them (R40, R72). -/
theorem slots_queueUpd {s : State} (hlen : s.sys.qmem.length = s.cfg.K) (hq : s.sys.qWr < s.cfg.K) :
    (queueUpd s s.sys).qmem.length = s.cfg.K ∧ (queueUpd s s.sys).qWr < s.cfg.K := by
  cases hv : s.sys.accValid with
  | false =>
    rw [queueUpd_nowrite hv]
    exact ⟨hlen, hq⟩
  | true =>
    rw [queueUpd, if_pos hv]
    exact ⟨(Memory.length_write _ _ _).trans hlen, qWr_next_lt hq⟩

/-- A tick keeps the block's configuration, its table and the queue's form. -/
theorem running_afterTick {s : State} (h : s.Running) (e : Bool × Int) :
    (s.afterTick e).Running := by
  obtain ⟨hlegal, hstage, htable, hlen, hq⟩ := h
  obtain ⟨hlen', hq'⟩ := slots_queueUpd (s := s.beginTick) hlen hq
  obtain ⟨hmem, hwr⟩ := queue_sysUpd s.beginTick s.sys
  exact ⟨hlegal, hstage, htable, (congrArg List.length hmem).trans hlen', hwr.trans_lt hq'⟩

/-- The registers after a tick without reset, component by component (R30, R230). -/
theorem afterTick_regs (s : State) (e : Bool × Int) :
    SameDec (decUpd s s.sys) (s.afterTick e).sys ∧ SameCursor (cursorUpd s s.sys) (s.afterTick e).sys ∧
      SameRspFsm (rspUpd (midTick s) e s.adc) (s.afterTick e).adc ∧
      SameRspCount (countUpd (midTick s) s.adc) (s.afterTick e).adc ∧
      (midTick s).cs = (s.afterTick e).sys.decCs :=
  ⟨sameDec_sysUpd s.beginTick s.sys, sameCursor_sysUpd s.beginTick s.sys, sameRspFsm_countUpd _ _,
    sameRspCount_countUpd (sameRspCount_rspUpd _ _ _) _, rfl⟩

/-- The Responder's counter and index after one more tick (R140, R141). -/
theorem countUpd_succ {s : State} {k : Nat} (hcnt : s.adc.rspCnt = k % (s.cfg.C + 1))
    (hidx : s.adc.rspIdx = k / (s.cfg.C + 1)) (hfit : (k + 1) / (s.cfg.C + 1) < 2 ^ s.cfg.IW) :
    (countUpd s s.adc).rspCnt = (k + 1) % (s.cfg.C + 1) ∧
      (countUpd s s.adc).rspIdx = (k + 1) / (s.cfg.C + 1) := by
  have hC : 0 < s.cfg.C + 1 := Nat.succ_pos _
  have hle := Nat.mod_lt k hC
  by_cases hlast : k % (s.cfg.C + 1) = s.cfg.C
  · obtain ⟨hmod, hdiv⟩ := divMod_succ_of_eq hC hlast
    rw [hdiv] at hfit
    rw [countUpd_of_eq (hcnt.trans hlast), hmod, hdiv, hidx, Nat.mod_eq_of_lt hfit]
    exact ⟨rfl, rfl⟩
  · obtain ⟨hmod, hdiv⟩ := divMod_succ_of_ne hC hlast
    rw [countUpd_of_lt (by omega), hmod, hdiv, hcnt, hidx]
    exact ⟨rfl, rfl⟩

/-- The read cursor after one more tick (R235, R236). -/
theorem cursorUpd_succ {s : State} {k : Nat} (hperiod : 0 < s.cfg.rdPeriod)
    (hcnt : s.sys.hRdcnt = k % s.cfg.rdPeriod)
    (hrd : s.sys.hRd = k / s.cfg.rdPeriod % 2 ^ s.cfg.QW) :
    (cursorUpd s s.sys).hRdcnt = (k + 1) % s.cfg.rdPeriod ∧
      (cursorUpd s s.sys).hRd = (k + 1) / s.cfg.rdPeriod % 2 ^ s.cfg.QW := by
  by_cases hlast : k % s.cfg.rdPeriod = s.cfg.rdPeriod - 1
  · obtain ⟨hmod, hdiv⟩ := divMod_succ_of_eq hperiod hlast
    rw [cursorUpd_advance (hcnt.trans hlast), hmod, hdiv, hrd, Nat.mod_add_mod]
    exact ⟨rfl, rfl⟩
  · obtain ⟨hmod, hdiv⟩ := divMod_succ_of_ne hperiod hlast
    rw [cursorUpd_wait (hcnt ▸ Nat.mod_lt k hperiod) (hcnt ▸ hlast), hmod, hdiv, hcnt, hrd]
    exact ⟨rfl, rfl⟩

/-- A load after k ticks is one by the index of R143, so the entry it finds is one of the table. -/
theorem State.OnSchedule.loadIndex_lt {s : State} {k j : Nat} (h : s.OnSchedule k) {e : Bool × Int}
    (hload : (midTick s).loads → tableRead s.gtab s.adc.rspIdx = some e)
    (hj : 2 + j * (s.cfg.N + 4) ≤ k + 1) : loadIndex s.cfg j < s.cfg.L := by
  obtain ⟨⟨hlegal, -, ⟨hlen, -⟩, -⟩, hdec, hrsp, hsel, -, hidx, -, -, hloads⟩ := h
  rcases Nat.lt_or_eq_of_le hj with hlt | heq
  · exact hloads j (Nat.le_of_lt_succ hlt)
  have hk : k = 1 + j * (s.cfg.N + 4) := by omega
  have hmod : k % (s.cfg.N + 4) = 1 := by
    rw [hk, Nat.add_mul_mod_self_right, Nat.mod_eq_of_lt (by omega)]
  have hcs : s.sys.decCs = false := Bool.eq_false_iff.2 fun h => by simp [hsel.1 h] at hmod
  have hmid : (midTick s).cs = false :=
    cs_midTick_of_selected hcs (by rw [hdec, hmod]; unfold bitCode; omega)
  have hentry := hload ⟨hrsp.trans hmod, by simp [hmid]⟩
  rw [loadIndex, ← hk, ← hidx, ← hlen]
  exact (List.getElem?_eq_some_iff.1 hentry).1

/-- Every tick without reset that completes takes the schedule one tick on. -/
theorem onSchedule_afterTick {s : State} {k : Nat} (h : s.OnSchedule k) {e : Bool × Int}
    (hload : (midTick s).loads → tableRead s.gtab s.adc.rspIdx = some e) :
    (s.afterTick e).OnSchedule (k + 1) := by
  have hnew (j : Nat) := h.loadIndex_lt hload (j := j)
  obtain ⟨hN, hle, -⟩ := h.sound
  obtain ⟨hrun, hdec, hrsp, hsel, hcnt, hidx, hrdcnt, hrd, -⟩ := h
  obtain ⟨hlegal, -⟩ := id hrun
  obtain ⟨hsys, ⟨hrd', hrdcnt'⟩, hfsm, ⟨hcnt', hidx'⟩, hcs⟩ := afterTick_regs s e
  obtain ⟨hdec', hrsp', hsel'⟩ := codes_succ_of_upd hN hle (hrsp.trans hdec.symm)
    (by rw [hsel, hdec, idleCode]) hsys hfsm hcs
  have hcode : (s.afterTick e).sys.decState = (k + 1) % (s.cfg.N + 4) := by
    rw [hdec', hdec, Nat.mod_add_mod]
  obtain ⟨hcntk, hidxk⟩ := countUpd_succ (s := midTick s) hcnt hidx
    (index_lt_two_pow_IW hlegal.inRange.cycles hnew)
  obtain ⟨hrdcntk, hrdk⟩ := cursorUpd_succ hlegal.inRange.readPeriod hrdcnt hrd
  exact ⟨running_afterTick hrun e, hcode, hrsp'.trans hcode, by rw [hsel', hcode]; rfl, hcnt'.trans hcntk,
    hidx'.trans hidxk, hrdcnt'.trans hrdcntk, hrd'.trans hrdk, hnew⟩

/-! ### Runs from a reset state (R237, R273) -/

/-- In a reset state no tick has been made and no entry loaded. -/
theorem State.AtReset.onSchedule {s : State} (h : s.AtReset) : s.OnSchedule 0 := by
  obtain ⟨hrun, hsys, hadc⟩ := h
  refine ⟨hrun, ?_⟩
  rw [hsys, hadc]
  simp [SysRegs.reset, AdcRegs.reset, idleCode]

theorem stepsFrom_succ_of_next {s t : State} {k : Nat} (h : stepsFrom k s = .next t) :
    stepsFrom (k + 1) s = step t := by
  rw [stepsFrom_add, h, andThen_next, stepsFrom_one]

/-- What k ticks leave alone, and what they count (R29, R71, R238). -/
theorem stepsFrom_next_frame {s t : State} {k : Nat} (hrun : s.stage = .run)
    (h : stepsFrom k s = .next t) :
    t.stage = .run ∧ t.cfg = s.cfg ∧ t.gtab = s.gtab ∧ t.rstIn = s.rstIn.drop k ∧
      t.tick = s.tick + k := by
  induction k generalizing s with
  | zero =>
    cases h
    exact ⟨hrun, rfl, rfl, rfl, rfl⟩
  | succ k ih =>
    rw [stepsFrom_succ] at h
    obtain ⟨u, hu, ht⟩ := andThen_eq_next.1 h
    rw [step_run hrun] at hu
    obtain ⟨r, a, q, n, rfl⟩ := tick_next_frame hu
    obtain ⟨hstage, hcfg, hgtab, hrst, htick⟩ := ih (by exact hrun) ht
    refine ⟨hstage, hcfg, hgtab, ?_, ?_⟩
    · rw [hrst, List.drop_tail]
    · rw [htick]
      exact Nat.add_right_comm s.tick 1 k

/-- The tick after k of n without reset has none either. -/
theorem State.NoResetFor.nextRst {s t : State} {k n : Nat} (h : s.NoResetFor n) (hk : k < n)
    (hrst : t.rstIn = s.rstIn.drop k) : t.nextRst = false := by
  rw [State.nextRst, hrst, List.headD_eq_head?_getD, List.head?_drop]
  cases hb : s.rstIn[k]? with
  | none => rfl
  | some b => exact h b (List.mem_of_getElem? ((List.getElem?_take_of_lt hk).trans hb))

/-! ### The aligned run (R143, R256, R288) -/

/-- With C + 1 = N + 4 every tick up to the end of the table completes: its load, if it makes one, is by the
number of whole transfers so far. -/
theorem exists_step_of_aligned {s : State} {k : Nat} (h : s.OnSchedule k)
    (haligned : s.cfg.C + 1 = s.cfg.N + 4) (hr : s.nextRst = false)
    (hk : k < 1 + s.cfg.L * (s.cfg.N + 4)) : ∃ t, step s = .next t ∧ t.OnSchedule (k + 1) := by
  obtain ⟨⟨-, hrun, ⟨hlen, -⟩, -⟩, -, hrsp, -, -, hidx, -⟩ := id h
  rw [step_run hrun]
  rcases tick_next_or_mf1 h.sound hr with ⟨e, hload, hnext⟩ | ⟨⟨hcode, -⟩, hnone, -⟩
  · exact ⟨_, hnext, onSchedule_afterTick h hload⟩
  · have hpast : s.cfg.L ≤ k / (s.cfg.N + 4) := by
      rw [← hlen, ← haligned, ← hidx]
      exact List.getElem?_eq_none_iff.1 hnone
    have hmod : k % (s.cfg.N + 4) = 1 := hrsp.symm.trans hcode
    have hdiv := Nat.mod_add_div' k (s.cfg.N + 4)
    have hmul := Nat.mul_le_mul_right (s.cfg.N + 4) hpast
    omega

/-- After 1 + L (N + 4) ticks the Responder is in WAIT1 with the index L, selected: the next tick is MF1. -/
theorem step_mf1_of_aligned {s : State} (h : s.OnSchedule (1 + s.cfg.L * (s.cfg.N + 4)))
    (haligned : s.cfg.C + 1 = s.cfg.N + 4) (hr : s.nextRst = false) :
    step s = .fault (.mf1OutOfTable s.cfg.L (s.tick + 1)) := by
  obtain ⟨hN, hle, hq, -⟩ := h.sound
  obtain ⟨⟨-, hrun, ⟨hlen, -⟩, -⟩, hdec, hrsp, hsel, -, hidx, -⟩ := h
  have hlt : 1 < s.cfg.N + 4 := by omega
  have hmod : (1 + s.cfg.L * (s.cfg.N + 4)) % (s.cfg.N + 4) = 1 := by
    rw [Nat.add_mul_mod_self_right, Nat.mod_eq_of_lt hlt]
  have hdiv : (1 + s.cfg.L * (s.cfg.N + 4)) / (s.cfg.N + 4) = s.cfg.L := by
    rw [Nat.add_mul_div_right _ _ (Nat.zero_lt_of_lt hlt), Nat.div_eq_of_lt hlt, Nat.zero_add]
  rw [haligned, hdiv] at hidx
  rw [hmod] at hdec hrsp hsel
  have hcs : (midTick s).cs = false :=
    cs_midTick_of_selected (Bool.eq_false_iff.2 fun h => absurd (hsel.1 h) one_ne_zero)
      (by rw [hdec]; unfold bitCode; omega)
  have hnone : tableRead s.gtab s.adc.rspIdx = none :=
    List.getElem?_eq_none (hlen.trans_le hidx.ge)
  rw [step_run hrun, tick_mf1 hr hN hle hq ⟨hrsp, by simp [hcs]⟩ hnone, hidx]

/-- Every number of ticks up to the end of the table completes, on the schedule. -/
theorem exists_stepsFrom_onSchedule {s : State} (h : s.AtReset)
    (haligned : s.cfg.C + 1 = s.cfg.N + 4) (hr : s.NoResetFor (2 + s.cfg.L * (s.cfg.N + 4))) {k : Nat}
    (hk : k ≤ 1 + s.cfg.L * (s.cfg.N + 4)) : ∃ t, stepsFrom k s = .next t ∧ t.OnSchedule k := by
  obtain ⟨⟨-, hrun, -⟩, -⟩ := id h
  induction k with
  | zero => exact ⟨s, rfl, h.onSchedule⟩
  | succ k ih =>
    obtain ⟨t, ht, hsched⟩ := ih (Nat.le_of_lt hk)
    obtain ⟨-, hcfg, -, hrst, -⟩ := stepsFrom_next_frame hrun ht
    rw [stepsFrom_succ_of_next ht]
    exact exists_step_of_aligned hsched (by rwa [hcfg]) (hr.nextRst (by omega) hrst) (by rwa [hcfg])

/-- Settles O60: on the schedule every tick up to the end of the table completes, and the load of the next
one is past it. -/
theorem alignedRunEndsAtTableEnd : Obligations.AlignedRunEndsAtTableEnd := by
  unfold Obligations.AlignedRunEndsAtTableEnd
  intro s h haligned hr
  obtain ⟨⟨-, hrun, -⟩, -⟩ := id h
  obtain ⟨t, ht, hsched⟩ := exists_stepsFrom_onSchedule h haligned hr le_rfl
  obtain ⟨-, hcfg, -, hrst, htick⟩ := stepsFrom_next_frame hrun ht
  rw [← hcfg] at haligned hsched
  have hmf1 := step_mf1_of_aligned hsched haligned (hr.nextRst (by omega) hrst)
  refine ⟨⟨t, ht⟩, ?_⟩
  rw [show 2 + s.cfg.L * (s.cfg.N + 4) = 1 + s.cfg.L * (s.cfg.N + 4) + 1 by omega,
    stepsFrom_succ_of_next ht, hmf1, hcfg, htick]
  congr 2
  omega

end Sys2Proof.Machine
end

section
/-!
PROOFS. The schedule from any reset state (R143, R167, R236, R273): what a reset tick ends in, and that a
predicate of the tick number which every step without reset takes one tick on holds after any run from a
reset state.
-/

namespace Sys2Proof.Machine

/-- A reset tick of a running block ends in a reset state (R272, R273). -/
theorem State.Running.atReset_of_step {s t : State} (h : s.Running) (hr : s.nextRst = true)
    (ht : step s = .next t) : t.AtReset := by
  obtain ⟨hlegal, hrun, htable, hlen, hq⟩ := h
  rw [step_run hrun, tick_reset hr] at ht
  cases ht
  exact ⟨⟨hlegal, hrun, htable, hlen, Nat.zero_lt_of_lt hq⟩, rfl, rfl⟩

/-- On the schedule a step without reset that completes is the tick whose load, if it makes one, has found
its entry (R131, R230). -/
theorem State.OnSchedule.exists_afterTick {s t : State} {k : Nat} (h : s.OnSchedule k)
    (hr : s.nextRst = false) (ht : step s = .next t) :
    ∃ e, ((midTick s).loads → tableRead s.gtab s.adc.rspIdx = some e) ∧ t = s.afterTick e := by
  obtain ⟨⟨-, hrun, -⟩, -⟩ := id h
  rw [step_run hrun] at ht
  rcases tick_next_or_mf1 h.sound hr with ⟨e, hload, hnext⟩ | ⟨-, -, hmf1⟩
  · rw [hnext] at ht
    cases ht
    exact ⟨e, hload, rfl⟩
  · rw [hmf1] at ht
    cases ht

theorem onSchedule_step {s t : State} {k : Nat} (h : s.OnSchedule k) (hr : s.nextRst = false)
    (ht : step s = .next t) : t.OnSchedule (k + 1) := by
  obtain ⟨e, hload, rfl⟩ := h.exists_afterTick hr ht
  exact onSchedule_afterTick h hload

theorem State.NoResetFor.of_succ {s : State} {k : Nat} (h : s.NoResetFor (k + 1)) : s.NoResetFor k :=
  fun b hb => h b ((List.take_sublist_take_left (Nat.le_succ k)).mem hb)

/-- What holds with 0 in every reset state and goes from k to k + 1 with every step without reset holds k
ticks after any reset state (R273). -/
theorem holds_after_reset {P : Nat → State → Prop} (hreset : ∀ s : State, s.AtReset → P 0 s)
    (hstep : ∀ (s t : State) (k : Nat), P k s → s.nextRst = false → step s = .next t → P (k + 1) t)
    (s t : State) (k : Nat) (hs : s.AtReset) (hn : s.NoResetFor k) (ht : stepsFrom k s = .next t) :
    P k t := by
  obtain ⟨⟨-, hrun, -⟩, -⟩ := id hs
  induction k generalizing t with
  | zero =>
    cases ht
    exact hreset s hs
  | succ k ih =>
    rw [stepsFrom_add] at ht
    obtain ⟨u, hu, hut⟩ := andThen_eq_next.1 ht
    rw [stepsFrom_one] at hut
    obtain ⟨-, -, -, hrst, -⟩ := stepsFrom_next_frame hrun hu
    exact hstep u t k (ih u hn.of_succ hu) (hn.nextRst (Nat.lt_succ_self k) hrst) hut

/-- Settles O57: the reset tick, the schedule in a reset state, its step, and any run of them. -/
theorem runSchedule : Obligations.RunSchedule := by
  unfold Obligations.RunSchedule
  exact ⟨fun _ _ => State.Running.atReset_of_step, fun _ => State.AtReset.onSchedule,
    fun _ _ _ => onSchedule_step,
    holds_after_reset (fun _ => State.AtReset.onSchedule) fun _ _ _ => onSchedule_step⟩

end Sys2Proof.Machine
end

section
/-!
PROOFS. The transfers on the schedule (R131, R143, R166, R168, R273): the load of transfer j, the sample held
until the next one, the bits captured of it, and the pulse that carries it.
-/

namespace Sys2Proof.Machine

/-! ### The pulse (R166) -/

/-- The last count of a period comes before a whole number of periods. -/
theorem mod_eq_sub_one_iff {k d : Nat} (hd : 0 < d) : k % d = d - 1 ↔ ∃ j, k + 1 = (j + 1) * d := by
  constructor
  · intro h
    have hk := Nat.mod_add_div' k d
    exact ⟨k / d, by rw [Nat.succ_mul]; omega⟩
  · rintro ⟨j, h⟩
    rw [Nat.succ_mul] at h
    rw [show k = d - 1 + j * d by omega, Nat.add_mul_mod_self_right, Nat.mod_eq_of_lt (by omega)]

/-- In lock-step the Decoder raises the pulse with BIT(0) and in no other state (R160 to R165). -/
theorem decValid_decUpd {s : State} (hN : 1 ≤ s.cfg.N) (hdec : s.sys.decState ≤ s.cfg.N + 3)
    (hlock : s.Lockstep) : (decUpd s s.sys).decValid = true ↔ s.sys.decState = bitCode s.cfg 0 := by
  obtain ⟨-, -, hpulse⟩ := hlock
  by_cases h0 : s.sys.decState = idleCode
  · rw [decUpd_idle h0, h0]
    simp [bitCode, idleCode]
  rcases Nat.lt_or_eq_of_le hdec with hlt | hlast
  · obtain ⟨-, -, hvalid⟩ := decUpd_between hN h0 hlt s.sys
    rw [hvalid]
    exact ⟨fun hv => absurd (hpulse hv) h0, fun hc => absurd hc hlt.ne⟩
  · rw [decUpd_bit0 hN hlast]
    exact ⟨fun _ => hlast, fun _ => rfl⟩

/-- Where the transfers' predicate holds the FSMs are in lock-step (R166, R167, R169). -/
theorem State.OnTransfers.lockstep {s : State} {k : Nat} (h : s.OnTransfers k) : s.Lockstep := by
  obtain ⟨⟨-, hdec, hrsp, hsel, -⟩, -, hpulse, -⟩ := h
  unfold State.Lockstep
  rw [hdec, hrsp]
  refine ⟨rfl, hsel, fun hv => ?_⟩
  obtain ⟨j, hj⟩ := hpulse.1 hv
  rw [hj, Nat.mul_mod_left, idleCode]

/-- The pulse of the next state (R166). -/
theorem State.OnTransfers.decValid_afterTick {s : State} {k : Nat} (h : s.OnTransfers k) (e : Bool × Int) :
    (s.afterTick e).sys.decValid = true ↔ ∃ j, k + 1 = (j + 1) * (s.cfg.N + 4) := by
  obtain ⟨hsched, -⟩ := id h
  obtain ⟨hN, hle, -⟩ := hsched.sound
  obtain ⟨-, hdec, -⟩ := hsched
  obtain ⟨⟨-, -, hvalid, -⟩, -⟩ := afterTick_regs s e
  rw [hvalid, decValid_decUpd hN hle h.lockstep, hdec]
  exact mod_eq_sub_one_iff (Nat.succ_pos _)

/-! ### The held sample (R131, R143) -/

/-- On the schedule the Responder loads in the first state after IDLE, and no abort takes its place: the
device stays selected (R131, R142). -/
theorem State.OnSchedule.loads_iff {s : State} {k : Nat} (h : s.OnSchedule k) :
    (midTick s).loads ↔ k % (s.cfg.N + 4) = 1 := by
  obtain ⟨-, hdec, hrsp, hsel, -⟩ := h
  refine ⟨fun ⟨hc, _⟩ => hrsp.symm.trans hc, fun hk => ⟨hrsp.trans hk, ?_⟩⟩
  have hcs : s.sys.decCs = false := Bool.eq_false_iff.2 fun hcs => by simp [hsel.1 hcs] at hk
  have hmid : (midTick s).cs = false :=
    cs_midTick_of_selected hcs (by rw [hdec, hk]; unfold bitCode; omega)
  rw [hmid, Bool.and_false]

theorem tableSample_of_read {t : List (Bool × Int)} {i : Nat} {e : Bool × Int}
    (h : tableRead t i = some e) : tableSample t i = e.2 := by
  rw [tableSample, h]

/-- Every sample of a table of R71's form is a signed N-bit one. -/
theorem fitsSigned_tableSample {c : Config} {t : List (Bool × Int)} (h : TableWf c t) {i : Nat}
    (hi : i < c.L) : fitsSigned c.N (tableSample t i) = true := by
  obtain ⟨hlen, hall⟩ := h
  rw [← hlen] at hi
  rw [tableSample_of_read (List.getElem?_eq_getElem hi)]
  exact List.all_eq_true.1 hall _ (List.getElem_mem hi)

/-- Transfer j loads its entry in tick 2 + j (N + 4) (R131, R143). -/
theorem State.OnSchedule.hold_of_load {s : State} {k j : Nat} (h : s.OnSchedule k) {e : Bool × Int}
    (hload : (midTick s).loads → tableRead s.gtab s.adc.rspIdx = some e)
    (hk : k = 1 + j * (s.cfg.N + 4)) :
    (s.afterTick e).adc.rspHoldSample = pat s.cfg.N (tableSample s.gtab (loadIndex s.cfg j)) := by
  have hmod : k % (s.cfg.N + 4) = 1 := by
    rw [hk, Nat.add_mul_mod_self_right, Nat.mod_eq_of_lt (by omega)]
  have hloads := h.loads_iff.2 hmod
  obtain ⟨-, -, -, -, -, hidx, -⟩ := h
  obtain ⟨-, -, ⟨-, hhold, -⟩, -⟩ := afterTick_regs s e
  have hentry := hload hloads
  rw [hidx, hk] at hentry
  rw [hhold, rspUpd_wait1 hloads.2 hloads.1, loadIndex, tableSample_of_read hentry]
  rfl

/-- Every other tick keeps the held sample (R131). -/
theorem State.OnSchedule.hold_of_no_load {s : State} {k : Nat} (h : s.OnSchedule k)
    (hk : k % (s.cfg.N + 4) ≠ 1) (e : Bool × Int) :
    (s.afterTick e).adc.rspHoldSample = s.adc.rspHoldSample := by
  obtain ⟨-, -, ⟨-, hhold, -⟩, -⟩ := afterTick_regs s e
  obtain ⟨hkeep, -⟩ := hold_rspUpd_of_not_loads (mt h.loads_iff.1 hk) e s.adc
  exact hhold.trans hkeep

/-- After the first count of a period and up to the first of the next one no count is a first. -/
theorem mod_ne_one_of_between {k j d : Nat} (hlo : 2 + j * d ≤ k) (hhi : k < 1 + (j + 1) * d) :
    k % d ≠ 1 := by
  intro hk
  have hdiv := Nat.mod_add_div' k d
  rcases Nat.lt_or_ge j (k / d) with hlt | hge
  · have : (j + 1) * d ≤ k / d * d := Nat.mul_le_mul_right d hlt
    omega
  · have := Nat.mul_le_mul_right d hge
    omega

/-- From its load to the next one transfer j's sample is held (R131, R143). -/
theorem State.OnTransfers.hold_afterTick {s : State} {k j : Nat} (h : s.OnTransfers k) {e : Bool × Int}
    (hload : (midTick s).loads → tableRead s.gtab s.adc.rspIdx = some e)
    (hlo : 2 + j * (s.cfg.N + 4) ≤ k + 1) (hhi : k + 1 < 2 + (j + 1) * (s.cfg.N + 4)) :
    (s.afterTick e).adc.rspHoldSample = pat s.cfg.N (tableSample s.gtab (loadIndex s.cfg j)) := by
  obtain ⟨hsched, -, -, hheld⟩ := h
  rcases Nat.lt_or_eq_of_le hlo with hlt | heq
  · have hne := mod_ne_one_of_between (Nat.le_of_lt_succ hlt) (by omega)
    rw [hsched.hold_of_no_load hne e]
    exact hheld j (Nat.le_of_lt_succ hlt) (Nat.lt_of_succ_lt hhi)
  · exact hsched.hold_of_load hload (by omega)

/-- A held sample is an N-bit pattern: the last load's (R47, R131). -/
theorem State.OnTransfers.hold_lt {s : State} {k : Nat} (h : s.OnTransfers k) (hk : 2 ≤ k) :
    s.adc.rspHoldSample < 2 ^ s.cfg.N := by
  obtain ⟨-, -, -, hheld⟩ := h
  have hlow := Nat.div_mul_le_self (k - 2) (s.cfg.N + 4)
  have hhigh := Nat.lt_div_mul_add (a := k - 2) (b := s.cfg.N + 4) (Nat.succ_pos _)
  rw [hheld ((k - 2) / (s.cfg.N + 4)) (by omega) (by rw [Nat.succ_mul]; omega)]
  exact pat_lt _ _

/-! ### The captured bits (R99, R168) -/

/-- Every bit state captures its bit, BIT(0) too (R164, R165). -/
theorem decSample_decUpd_of_bit {s : State} {i : Nat} (hi : i < s.cfg.N)
    (hc : s.sys.decState = bitCode s.cfg i) (r : SysRegs) : (decUpd s r).decSample = captured s i := by
  rcases Nat.eq_zero_or_pos i with rfl | hpos
  · rw [decUpd_bit0 hi hc]
  · rw [decUpd_bit hpos hi hc]

/-- A tick keeps the captured bits the held sample's. In BIT(i) the bits from i on are captured after it,
and only with the pulse, which BIT(0) raises, are those all. -/
theorem State.OnTransfers.captured_afterTick {s : State} {k : Nat} (h : s.OnTransfers k)
    {e : Bool × Int} (hnext : (s.afterTick e).OnSchedule (k + 1)) : (s.afterTick e).Captured := by
  obtain ⟨hsched, hcap, -⟩ := id h
  have hpulse (hv : (s.afterTick e).sys.decValid = true) : k % (s.cfg.N + 4) = s.cfg.N + 3 :=
    (mod_eq_sub_one_iff (Nat.succ_pos _)).2 ((h.decValid_afterTick e).1 hv)
  obtain ⟨hN, hle, -⟩ := hsched.sound
  obtain ⟨⟨hlegal, -⟩, hdec, -⟩ := id hsched
  have hstep : (s.afterTick e).sys.decState ≤ s.sys.decState + 1 := by
    obtain ⟨-, hdec', -⟩ := hnext
    calc (s.afterTick e).sys.decState
        = (k + 1) % (s.cfg.N + 4) := hdec'
      _ = (k % (s.cfg.N + 4) + 1) % (s.cfg.N + 4) := (Nat.mod_add_mod _ _ _).symm
      _ ≤ s.sys.decState + 1 := hdec ▸ Nat.mod_le _ _
  rcases leadIn_or_bitCode hle with hlead | ⟨i, hi, hbit⟩
  · simp only [nullbitCode] at hlead
    refine State.captured_of_leadIn (hstep.trans (by omega)) (Bool.eq_false_iff.2 fun hv => ?_)
    have := hpulse hv
    omega
  · have h4 := four_le_bitCode hi
    obtain ⟨⟨-, -, -, hsample⟩, -⟩ := afterTick_regs s e
    have heq (j : Nat) := testBit_captured_eq_hold hi h.lockstep hcap hbit (j := j)
    unfold State.Captured
    rw [hsample, decSample_decUpd_of_bit hi hbit, hsched.hold_of_no_load (by omega) e]
    refine ⟨fun j hj hlt => heq j ?_ hj, fun hv => ?_⟩
    · have hlt' : bitCode s.cfg j < s.sys.decState + 1 := hlt.trans_le hstep
      rw [hbit] at hlt'
      unfold bitCode at hlt'
      omega
    · have hlast := hpulse hv
      have hi0 : i = 0 := by
        rw [hdec, hlast] at hbit
        unfold bitCode at hbit
        omega
      have hk : 2 ≤ k := by
        have := Nat.mod_le k (s.cfg.N + 4)
        omega
      exact eq_sext_of_testBit hN (fitsSigned_captured hlegal.inRange i) (h.hold_lt hk)
        fun j hj => heq j (by omega) hj

/-! ### The predicate (R273) -/

/-- In a reset state nothing has been transferred. -/
theorem State.AtReset.onTransfers {s : State} (h : s.AtReset) : s.OnTransfers 0 := by
  obtain ⟨-, hsys, -⟩ := id h
  have hidle : s.sys.decState = idleCode := by rw [hsys]; rfl
  have hquiet : s.sys.decValid = false := by rw [hsys]; rfl
  refine ⟨h.onSchedule, State.captured_of_leadIn (by rw [hidle]; decide) hquiet, ?_,
    fun j hj => absurd hj (by omega)⟩
  rw [hquiet]
  exact ⟨nofun, fun ⟨j, hj⟩ => absurd hj (Nat.mul_pos (Nat.succ_pos j) (Nat.succ_pos _)).ne⟩

/-- Every tick without reset that completes takes the transfers one tick on. -/
theorem onTransfers_afterTick {s : State} {k : Nat} (h : s.OnTransfers k) {e : Bool × Int}
    (hload : (midTick s).loads → tableRead s.gtab s.adc.rspIdx = some e) :
    (s.afterTick e).OnTransfers (k + 1) := by
  obtain ⟨hsched, -⟩ := id h
  have hnext := onSchedule_afterTick hsched hload
  exact ⟨hnext, h.captured_afterTick hnext, h.decValid_afterTick e, fun _ => h.hold_afterTick hload⟩

theorem onTransfers_step {s t : State} {k : Nat} (h : s.OnTransfers k) (hr : s.nextRst = false)
    (ht : step s = .next t) : t.OnTransfers (k + 1) := by
  obtain ⟨hsched, -⟩ := id h
  obtain ⟨e, hload, rfl⟩ := hsched.exists_afterTick hr ht
  exact onTransfers_afterTick h hload

/-- With the pulse of transfer j the decoded sample is the table's (R143, R168). -/
theorem State.OnTransfers.decSample_eq {s : State} {k j : Nat} (h : s.OnTransfers k)
    (hk : k = (j + 1) * (s.cfg.N + 4)) :
    s.sys.decSample = tableSample s.gtab (loadIndex s.cfg j) := by
  obtain ⟨hsched, ⟨-, hsample⟩, hpulse, hheld⟩ := h
  obtain ⟨hN, -⟩ := hsched.sound
  obtain ⟨⟨-, -, htable, -⟩, -, -, -, -, -, -, -, hloads⟩ := hsched
  have hlo : 2 + j * (s.cfg.N + 4) ≤ k := by
    rw [hk, Nat.succ_mul]
    omega
  rw [hsample (hpulse.2 ⟨j, hk⟩), hheld j hlo (by omega),
    sext_pat_of_fits hN (fitsSigned_tableSample htable (hloads j hlo))]

/-- When the index advances once a transfer, transfer j loads entry j (R143, R288). -/
theorem loadIndex_of_aligned {c : Config} (h : c.C + 1 = c.N + 4) (j : Nat) : loadIndex c j = j := by
  rw [loadIndex, h, Nat.add_mul_div_right _ _ (Nat.succ_pos _), Nat.div_eq_of_lt (by omega),
    Nat.zero_add]

/-- Settles O58: the predicate in a reset state, its step, any run of them, and what it says at a pulse. -/
theorem pulsesCarryTheTable : Obligations.PulsesCarryTheTable := by
  unfold Obligations.PulsesCarryTheTable
  refine ⟨fun _ => State.AtReset.onTransfers, fun _ _ _ => onTransfers_step,
    holds_after_reset (fun _ => State.AtReset.onTransfers) fun _ _ _ => onTransfers_step,
    fun s k h => ?_⟩
  obtain ⟨-, -, hpulse, -⟩ := id h
  refine ⟨hpulse, fun j hk => ⟨h.decSample_eq hk, fun haligned => ?_⟩⟩
  rw [h.decSample_eq hk, loadIndex_of_aligned haligned]

end Sys2Proof.Machine
end

section
/-!
PROOFS. The sums on the schedule (R190 to R195, R273): every pulse adds its transfer's sample, the last one
of a group of G = LIM + 1 emits the group's sum, and the output keeps it until the next.
-/

namespace Sys2Proof.Machine

/-! ### The samples accepted (R195) -/

theorem acceptedBy_succ (c : Config) (k : Nat) : acceptedBy c (k + 1) = k / (c.N + 4) := rfl

/-- With the pulse of transfer j the j samples before it have been accepted. -/
theorem acceptedBy_of_pulse {c : Config} {k j : Nat} (hk : k = (j + 1) * (c.N + 4)) :
    acceptedBy c k = j := by
  have hd : 0 < c.N + 4 := Nat.succ_pos _
  rw [acceptedBy, hk, Nat.succ_mul, Nat.add_sub_assoc hd, Nat.add_comm, Nat.add_mul_div_right _ _ hd,
    Nat.div_eq_of_lt (by omega), Nat.zero_add]

/-- A tick with a pulse accepts its sample. -/
theorem acceptedBy_succ_of_pulse {c : Config} {k j : Nat} (hk : k = (j + 1) * (c.N + 4)) :
    acceptedBy c (k + 1) = j + 1 := by
  rw [acceptedBy_succ, hk, Nat.mul_div_cancel _ (Nat.succ_pos _)]

/-- A tick without a pulse accepts none. -/
theorem acceptedBy_of_no_pulse {c : Config} {k : Nat} (hk : ¬ ∃ j, k = (j + 1) * (c.N + 4)) :
    acceptedBy c (k + 1) = acceptedBy c k := by
  cases k with
  | zero => rfl
  | succ k =>
    have hd : 0 < c.N + 4 := Nat.succ_pos _
    exact (divMod_succ_of_ne hd (mt (mod_eq_sub_one_iff hd).1 hk)).2

/-! ### The sums of transfers (R101, R191, R192) -/

theorem transferSum_zero (s : State) (j : Nat) : transferSum s j 0 = 0 :=
  Int.zero_bmod

theorem transferSum_succ (s : State) (j n : Nat) :
    transferSum s j (n + 1) =
      wrap s.cfg.W (transferSum s j n + tableSample s.gtab (loadIndex s.cfg (j + n))) := by
  rw [transferSum, transferSum, wrap_add_wrap, List.range_succ, List.map_append, List.sum_append,
    List.map_singleton, List.sum_singleton]

/-- With the pulse of transfer j the total is the sum of its group's samples up to its own. -/
theorem State.OnSums.accTotal_eq {s : State} {k j : Nat} (h : s.OnSums k)
    (hk : k = (j + 1) * (s.cfg.N + 4)) :
    accTotal s = transferSum s (j - j % (s.cfg.LIM + 1)) (j % (s.cfg.LIM + 1) + 1) := by
  obtain ⟨htrans, -, hsum, -⟩ := h
  rw [acceptedBy_of_pulse hk] at hsum
  rw [accTotal, hsum, htrans.decSample_eq hk, transferSum_succ, Nat.sub_add_cancel (Nat.mod_le _ _)]

/-- The count stays up to the boundary value (R190). -/
theorem State.OnSums.accCnt_le {s : State} {k : Nat} (h : s.OnSums k) : s.sys.accCnt ≤ s.cfg.LIM := by
  obtain ⟨-, hcnt, -⟩ := h
  rw [hcnt]
  exact Nat.le_of_lt_succ (Nat.mod_lt _ (Nat.succ_pos _))

/-! ### The Accumulator's registers after a tick (R190 to R193) -/

theorem afterTick_acc (s : State) (e : Bool × Int) : SameAcc (accUpd s s.sys) (s.afterTick e).sys :=
  sameAcc_sysUpd s.beginTick s.sys

/-- The count and the sum are those of the group the next sample is in. -/
theorem State.OnSums.count_afterTick {s : State} {k : Nat} (h : s.OnSums k) (e : Bool × Int) :
    (s.afterTick e).sys.accCnt = acceptedBy s.cfg (k + 1) % (s.cfg.LIM + 1) ∧
      (s.afterTick e).sys.accSum =
        transferSum s (acceptedBy s.cfg (k + 1) - acceptedBy s.cfg (k + 1) % (s.cfg.LIM + 1))
          (acceptedBy s.cfg (k + 1) % (s.cfg.LIM + 1)) := by
  have hle := h.accCnt_le
  have hG : 0 < s.cfg.LIM + 1 := Nat.succ_pos _
  obtain ⟨⟨-, -, hpulse, -⟩, hcnt, hsum, -⟩ := id h
  obtain ⟨hcnt', hsum', -⟩ := afterTick_acc s e
  rw [hcnt', hsum']
  cases hv : s.sys.decValid with
  | false =>
    rw [accUpd_hold hv, acceptedBy_of_no_pulse (fun hk => by simp [hpulse.2 hk] at hv)]
    exact ⟨hcnt, hsum⟩
  | true =>
    obtain ⟨j, hk⟩ := hpulse.1 hv
    rw [acceptedBy_of_pulse hk] at hcnt
    rw [acceptedBy_succ_of_pulse hk]
    rcases Nat.lt_or_eq_of_le hle with hlt | heq
    · obtain ⟨hmod, -⟩ := divMod_succ_of_ne hG (show j % (s.cfg.LIM + 1) ≠ s.cfg.LIM by omega)
      rw [accUpd_add hv hlt, hmod, Nat.add_sub_add_right, hcnt, h.accTotal_eq hk]
      exact ⟨rfl, rfl⟩
    · obtain ⟨hmod, -⟩ := divMod_succ_of_eq hG (show j % (s.cfg.LIM + 1) = s.cfg.LIM by omega)
      rw [accUpd_emit hv heq, hmod, transferSum_zero]
      exact ⟨rfl, rfl⟩

/-- A sum is emitted with the last pulse of a group (R192, R195). -/
theorem State.OnSums.emits_iff {s : State} {k : Nat} (h : s.OnSums k) :
    s.sys.decValid = true ∧ s.sys.accCnt = s.cfg.LIM ↔
      ∃ m, k + 1 = (m + 1) * (s.cfg.LIM + 1) * (s.cfg.N + 4) + 1 := by
  have hG : 0 < s.cfg.LIM + 1 := Nat.succ_pos _
  obtain ⟨⟨-, -, hpulse, -⟩, hcnt, -⟩ := h
  constructor
  · rintro ⟨hv, heq⟩
    obtain ⟨j, hk⟩ := hpulse.1 hv
    rw [hcnt, acceptedBy_of_pulse hk] at heq
    obtain ⟨m, hm⟩ := (mod_eq_sub_one_iff hG).1 heq
    exact ⟨m, by rw [hk, hm]⟩
  · rintro ⟨m, hm⟩
    obtain ⟨j, hj⟩ := Nat.exists_eq_add_of_le' (Nat.mul_pos (Nat.succ_pos m) hG)
    have hk : k = (j + 1) * (s.cfg.N + 4) := by
      rw [← hj]
      exact Nat.succ.inj hm
    rw [hcnt, acceptedBy_of_pulse hk]
    exact ⟨hpulse.2 ⟨j, hk⟩, (mod_eq_sub_one_iff hG).2 ⟨m, hj.symm⟩⟩

/-- The Accumulator raises its pulse and writes its output with an emitted sum only (R190 to R193). -/
theorem accUpd_of_emits {s : State} (h : s.sys.decValid = true ∧ s.sys.accCnt = s.cfg.LIM) (r : SysRegs) :
    (accUpd s r).accValid = true ∧ (accUpd s r).accOut = accTotal s := by
  obtain ⟨hv, heq⟩ := h
  rw [accUpd_emit hv heq]
  exact ⟨rfl, rfl⟩

theorem accUpd_of_not_emits {s : State} (hle : s.sys.accCnt ≤ s.cfg.LIM)
    (h : ¬ (s.sys.decValid = true ∧ s.sys.accCnt = s.cfg.LIM)) (r : SysRegs) :
    (accUpd s r).accValid = false ∧ (accUpd s r).accOut = r.accOut := by
  cases hv : s.sys.decValid with
  | false =>
    rw [accUpd_hold hv]
    exact ⟨rfl, rfl⟩
  | true =>
    rw [accUpd_add hv (Nat.lt_of_le_of_ne hle fun heq => h ⟨hv, heq⟩)]
    exact ⟨rfl, rfl⟩

/-- The output pulse of the next state (R194, R195). -/
theorem State.OnSums.accValid_afterTick {s : State} {k : Nat} (h : s.OnSums k) (e : Bool × Int) :
    (s.afterTick e).sys.accValid = true ↔
      ∃ m, k + 1 = (m + 1) * (s.cfg.LIM + 1) * (s.cfg.N + 4) + 1 := by
  obtain ⟨-, -, -, hvalid⟩ := afterTick_acc s e
  rw [hvalid, ← h.emits_iff]
  by_cases hemit : s.sys.decValid = true ∧ s.sys.accCnt = s.cfg.LIM
  · obtain ⟨hv, -⟩ := accUpd_of_emits hemit s.sys
    exact iff_of_true hv hemit
  · obtain ⟨hv, -⟩ := accUpd_of_not_emits h.accCnt_le hemit s.sys
    exact iff_of_false (by simp [hv]) hemit

/-- Between two multiples that follow each other there is no other. -/
theorem not_between_multiples {m n g d : Nat} (hlo : (m + 1) * g * d < (n + 1) * g * d)
    (hhi : (n + 1) * g * d < (m + 2) * g * d) : False := by
  simp only [Nat.mul_assoc] at hlo hhi
  have := Nat.lt_of_mul_lt_mul_right hlo
  have := Nat.lt_of_mul_lt_mul_right hhi
  omega

/-- From its pulse to the next one the output is group m's sum (R192, R195). -/
theorem State.OnSums.accOut_afterTick {s : State} {k m : Nat} (h : s.OnSums k) (e : Bool × Int)
    (hlo : (m + 1) * (s.cfg.LIM + 1) * (s.cfg.N + 4) + 1 ≤ k + 1)
    (hhi : k + 1 < (m + 2) * (s.cfg.LIM + 1) * (s.cfg.N + 4) + 1) :
    (s.afterTick e).sys.accOut = transferSum s (m * (s.cfg.LIM + 1)) (s.cfg.LIM + 1) := by
  obtain ⟨-, -, hout, -⟩ := afterTick_acc s e
  rw [hout]
  obtain ⟨⟨-, -, hpulse, -⟩, hcnt, -, -, hheld⟩ := id h
  rcases Nat.lt_or_eq_of_le hlo with hlt | heq
  · have hnot : ¬ (s.sys.decValid = true ∧ s.sys.accCnt = s.cfg.LIM) := fun hemit => by
      obtain ⟨n, hn⟩ := h.emits_iff.1 hemit
      exact not_between_multiples (m := m) (n := n) (g := s.cfg.LIM + 1) (d := s.cfg.N + 4) (by omega)
        (by omega)
    obtain ⟨-, hkeep⟩ := accUpd_of_not_emits h.accCnt_le hnot s.sys
    rw [hkeep]
    exact hheld m (Nat.le_of_lt_succ hlt) (Nat.lt_of_succ_lt hhi)
  · have hemit := h.emits_iff.2 ⟨m, heq.symm⟩
    obtain ⟨-, htotal⟩ := accUpd_of_emits hemit s.sys
    obtain ⟨hv, hlast⟩ := hemit
    obtain ⟨j, hk⟩ := hpulse.1 hv
    rw [htotal]
    rw [hcnt, acceptedBy_of_pulse hk] at hlast
    have hj : j + 1 = (m + 1) * (s.cfg.LIM + 1) := by
      refine Nat.eq_of_mul_eq_mul_right (Nat.succ_pos (s.cfg.N + 3)) ?_
      exact hk.symm.trans (Nat.succ.inj heq.symm)
    rw [h.accTotal_eq hk, hlast]
    congr 1
    rw [Nat.succ_mul] at hj
    omega

/-! ### The predicate (R273) -/

/-- In a reset state nothing has been accepted. -/
theorem State.AtReset.onSums {s : State} (h : s.AtReset) : s.OnSums 0 := by
  obtain ⟨-, hsys, -⟩ := id h
  have hcnt : s.sys.accCnt = 0 := by rw [hsys]; rfl
  have hsum : s.sys.accSum = 0 := by rw [hsys]; rfl
  have hquiet : s.sys.accValid = false := by rw [hsys]; rfl
  have hnone : acceptedBy s.cfg 0 % (s.cfg.LIM + 1) = 0 := by simp [acceptedBy]
  refine ⟨h.onTransfers, hcnt.trans hnone.symm, ?_, ?_, fun m hm => absurd hm (by omega)⟩
  · rw [hsum, hnone, transferSum_zero]
  · rw [hquiet]
    exact ⟨nofun, nofun⟩

/-- Every step without reset that completes takes the sums one tick on. -/
theorem onSums_step {s t : State} {k : Nat} (h : s.OnSums k) (hr : s.nextRst = false)
    (ht : step s = .next t) : t.OnSums (k + 1) := by
  obtain ⟨htrans, -⟩ := id h
  obtain ⟨hsched, -⟩ := id htrans
  obtain ⟨e, hload, rfl⟩ := hsched.exists_afterTick hr ht
  obtain ⟨hcnt, hsum⟩ := h.count_afterTick e
  exact ⟨onTransfers_afterTick htrans hload, hcnt, hsum, h.accValid_afterTick e,
    fun _ => h.accOut_afterTick e⟩

/-- Settles O59: the predicate in a reset state, its step, any run of them, and what it says at a pulse. -/
theorem emitsCarryGroupSums : Obligations.EmitsCarryGroupSums := by
  unfold Obligations.EmitsCarryGroupSums
  refine ⟨fun _ => State.AtReset.onSums, fun _ _ _ => onSums_step,
    holds_after_reset (fun _ => State.AtReset.onSums) fun _ _ _ => onSums_step, fun s k h => ?_⟩
  obtain ⟨-, -, -, hpulse, hout⟩ := h
  refine ⟨hpulse, fun m hk => hout m hk.ge ?_⟩
  have hG : 0 < (s.cfg.LIM + 1) * (s.cfg.N + 4) := Nat.mul_pos (Nat.succ_pos _) (Nat.succ_pos _)
  rw [hk, Nat.mul_assoc, Nat.mul_assoc]
  exact Nat.succ_lt_succ (Nat.mul_lt_mul_of_pos_right (Nat.lt_succ_self _) hG)

end Sys2Proof.Machine
end

section
/-!
PROOFS. Reset and power-on (R41, R270 to R273): RESET as an operation and as a tick, and S_0 of every
configuration, with the scenario's as one of them.
-/

namespace Sys2Proof.Machine

/-! ### RESET (R271, R272) -/

/-- The reset values of every register, every slot as it was (10_state.md section 5, R272). -/
theorem reset_values (m : Memory) :
    (SysRegs.reset m).decState = 0 ∧ (SysRegs.reset m).decCs = true ∧
      (SysRegs.reset m).decValid = false ∧ (SysRegs.reset m).decSample = 0 ∧
      (SysRegs.reset m).accCnt = 0 ∧ (SysRegs.reset m).accSum = 0 ∧ (SysRegs.reset m).accOut = 0 ∧
      (SysRegs.reset m).accValid = false ∧ (SysRegs.reset m).qWr = 0 ∧ (SysRegs.reset m).hRd = 0 ∧
      (SysRegs.reset m).hRdcnt = 0 ∧
      (∀ i, Memory.read (SysRegs.reset m).qmem i = Memory.read m i) ∧
      AdcRegs.reset.rspState = 0 ∧ AdcRegs.reset.rspCnt = 0 ∧ AdcRegs.reset.rspIdx = 0 ∧
      AdcRegs.reset.rspHoldSample = 0 ∧ AdcRegs.reset.rspHoldBit = false :=
  ⟨rfl, rfl, rfl, rfl, rfl, rfl, rfl, rfl, rfl, rfl, rfl, fun _ => rfl, rfl, rfl, rfl, rfl, rfl⟩

/-- Settles O38: the pending registers are the reset ones. -/
theorem resetOperationCompletes : Obligations.ResetOperationCompletes := by
  unfold Obligations.ResetOperationCompletes
  exact fun s => ⟨s.resetNext, rfl, rfl, reset_values s.sys.qmem⟩

/-- Settles O39: a reset tick commits the reset registers of both domains, whatever state it starts from. -/
theorem resetTickResetsBothDomains : Obligations.ResetTickResetsBothDomains := by
  unfold Obligations.ResetTickResetsBothDomains
  exact fun s hrun hr => ⟨_, (step_run hrun).trans (tick_reset hr), reset_values s.sys.qmem⟩

/-! ### The queue at power-on (R41) -/

theorem qmemInitial_of_listed {c : Config} {i : Nat} {v : Int} (h : c.qmemInit[i]? = some v) :
    qmemInitial c i = v := by
  simp only [qmemInitial, h]

theorem qmemInitial_of_not_listed {c : Config} {i : Nat} (h : c.qmemInit[i]? = none) :
    qmemInitial c i = wrap c.T (Config.qmemDraw i) := by
  simp only [qmemInitial, h]

theorem Memory.length_initial (c : Config) : (Memory.initial c).length = c.K := by
  simp [Memory.initial]

theorem Memory.read_initial {c : Config} {i : Nat} (h : i < c.K) :
    Memory.read (Memory.initial c) i = some (qmemInitial c i) := by
  simp [Memory.read, Memory.initial, h]

/-- Of the listed contents only those that are read have to fit (R252 check 5; log entry 31). -/
theorem Memory.wf_initial_of_queueInitFits {c : Config} (hT : 1 ≤ c.T) (h : c.QueueInitFits) :
    Memory.wf c (Memory.initial c) = true := by
  refine (Memory.wf_iff _ _).2 ⟨Memory.length_initial c, fun v hv => ?_⟩
  obtain ⟨i, hi, rfl⟩ := List.mem_map.1 hv
  cases hlist : c.qmemInit[i]? with
  | none =>
    rw [qmemInitial_of_not_listed hlist]
    exact fitsSigned_wrap hT _
  | some v =>
    rw [qmemInitial_of_listed hlist]
    exact h v (List.mem_of_getElem? ((List.getElem?_take_of_lt (List.mem_range.1 hi)).trans hlist))

/-! ### S_0 (R270, R273) -/

/-- Settles O40: the registers are the reset ones, and the queue holds its power-on contents. -/
theorem powerOnState : Obligations.PowerOnState := by
  unfold Obligations.PowerOnState
  intro c tbl hK
  exact ⟨rfl, rfl, rfl, rfl, rfl, State.qOut_of_slot (s := State.powerOn c tbl) (Memory.read_initial hK),
    fun _ => Memory.read_initial, fun _ _ => qmemInitial_of_listed⟩

/-- Settles O53: S_0 has the reset registers, which are in their ranges. -/
theorem powerOnIsWellFormed : Obligations.PowerOnIsWellFormed := by
  unfold Obligations.PowerOnIsWellFormed
  intro c tbl hlegal htable
  have hc := hlegal.inRange
  refine ⟨⟨⟨hlegal, rfl, htable, Memory.length_initial c, hc.capacity⟩, rfl, rfl⟩, fun hfits => ?_⟩
  have hmem := Memory.wf_initial_of_queueInitFits hc.entryWidth hfits
  exact ⟨hlegal, rfl, htable, SysRegs.wf_reset hc hmem, AdcRegs.wf_reset c, rfl, rfl⟩

/-- Without a bias the Generator's table is one construction accepts, whatever the bits and the cosine are
(R71, R117, R122). -/
theorem tableWf_genEntries {c : Config} (hbias : c.quantBias = 0) : TableWf c (genEntries c) := by
  rw [genEntries_eq_genTable]
  refine ⟨length_genTable c c.L, List.all_eq_true.2 fun e he => ?_⟩
  obtain ⟨t, -, rfl⟩ := List.mem_map.1 he
  exact fitsSigned_genSample hbias t _

theorem scenario_legal : Config.scenario.Legal := by
  decide

/-- Settles O54: the scenario's S_0 is one of a legal configuration, and so a reset state. -/
theorem resetStateMeetsInvariants : Obligations.ResetStateMeetsInvariants := by
  unfold Obligations.ResetStateMeetsInvariants
  obtain ⟨hreset, hwf⟩ := powerOnIsWellFormed _ _ scenario_legal (tableWf_genEntries rfl)
  obtain ⟨-, hcap, -⟩ := hreset.onTransfers
  exact ⟨hwf nofun, hreset.onTransfers.lockstep, hcap⟩

end Sys2Proof.Machine
end
